-- ==== Sys2Proof/Word.lean ====
section
/-! DEFINITION. The word types of the block (spec/00_scope.md rule R10): every value the manual treats as
bits is a bit vector of the manual's own width; lengths and cursors are unbounded naturals. -/

namespace Sys2Proof

/-- 8 bits: a byte on the serial channel, a byte of `SRC` or `DST`, a chip register address, a `CMD` word. -/
abbrev Byte := BitVec 8

/-- 16 bits: a control-register value, a chip-memory address, a word of `SRCW`. -/
abbrev Half := BitVec 16

/-- 32 bits: a host-visible register as the host reads and writes it (R24), and `LEN_WIDTH` (R8). -/
abbrev Long := BitVec 32

end Sys2Proof
end

