-- ==== Sys2Proof/Machine/Bits.lean ====
section
/-! DEFINITION. Bit fields and byte order (spec/00_scope.md R10; spec/20_memory.md R64, R65, R67, R68):
the two bytes of a 16-bit value, their concatenation, and the bit order of one transfer. -/

namespace Sys2Proof.Machine

/-- `v[15:8]` (R10, R64). -/
def hi8 (v : Half) : Byte := v.extractLsb' 8 8

/-- `v[7:0]` (R10, R64). -/
def lo8 (v : Half) : Byte := v.extractLsb' 0 8

/-- `h ++ l`: the 16-bit value whose bits [15:8] are `h` (R10, R65). -/
def cat16 (h l : Byte) : Half := h ++ l

/-- Byte `k` of a 32-bit frame word, byte 0 in bits [31:24] (spec/30_encoding.md R94). -/
def frameByte (w : Long) (k : Nat) : Byte := w.extractLsb' (24 - 8 * k) 8

/-- The four bytes of a frame word in the order they are sent (R94: "sent in order of decreasing bit number"). -/
def frameBytes (w : Long) : List Byte := [frameByte w 0, frameByte w 1, frameByte w 2, frameByte w 3]

/-- Byte `k` of the 24-bit marker word as opcode_table.json numbers it, byte 0 in bits [23:16] (R102). -/
def markerByte (w : BitVec 24) (k : Nat) : Byte := w.extractLsb' (16 - 8 * k) 8

/-- The three bytes of a marker word in the order they stand in the image (R102). -/
def markerBytes (w : BitVec 24) : List Byte := [markerByte w 0, markerByte w 1, markerByte w 2]

/-- The bits `MOSI` carries for one transfer of `b`, in the order sent: `b[7]` first (R67). -/
def mosiBits (b : Byte) : List Bool := (List.range 8).map fun k => b.getLsbD (7 - k)

/-- The byte received when `MISO` carried these bits in this order: the first is `r[7]` (R67). -/
def misoByte (bits : List Bool) : Byte :=
  bits.foldl (fun r x => (r <<< 1) ||| (if x then 1#8 else 0#8)) 0#8

/-! ### The pins during one transfer (R67) -/

/-- The levels of the three wires of the serial channel in one half of a clock period. -/
structure PinPhase where
  sck : Bool
  mosi : Bool
  miso : Bool
deriving DecidableEq, Repr

/-- One transfer of `b` on the wires: eight clock periods, in each of which `SCK` is low and then high while `MOSI`
carries the next bit. The chip puts `first k` on `MISO` in the first half of period `k` and `second k` in the second. -/
def transferPhases (b : Byte) (first second : Nat → Bool) : List PinPhase :=
  (List.range 8).flatMap fun k => [⟨false, b.getLsbD (7 - k), first k⟩, ⟨true, b.getLsbD (7 - k), second k⟩]

/-- The phases a rising edge of `SCK` opens, `SCK` standing at `last` before them: where both sides sample (R67, idle
low and sampling on the leading edge). -/
def leadingEdges : Bool → List PinPhase → List PinPhase
  | _, [] => []
  | last, p :: ps => if p.sck && !last then p :: leadingEdges p.sck ps else leadingEdges p.sck ps

/-- The bits sampled on `MOSI` during these phases, `SCK` low before them. -/
def sampledMosi (ps : List PinPhase) : List Bool := (leadingEdges false ps).map PinPhase.mosi

/-- The byte the block assembles from `MISO` during these phases, `SCK` low before them. -/
def sampledMiso (ps : List PinPhase) : Byte := misoByte ((leadingEdges false ps).map PinPhase.miso)

end Sys2Proof.Machine
end

