-- ==== Sys2Proof/Syntax.lean ====
section
/-! DEFINITION. The objects the block decodes (spec/30_encoding.md R90-R107), one constructor for each row of
spec/opcode_table.json. A host command has no operand field of its own: it reads the latched registers (R93). The
rows that share a mnemonic (ILLEGAL_HIGH_NIBBLE, APP_TYPE_ILLEGAL) are the table's splitting of one range by leading
bit; each keeps its own constructor, which carries the whole byte. -/

namespace Sys2Proof

inductive Instr where
  -- HOSTCMD (R91)
  | waitReady
  | ctrlWrite
  | ctrlRead
  | streamWrite
  | streamRead
  | ramWrite
  | ramRead
  | regSetBits
  | regClearBits
  | loadPlugin
  | loadApp
  | init
  | hardReset
  -- illegal HOSTCMD words (R92, R259)
  | illegal00
  | illegal0E
  | illegal0F
  | illegalHigh80 (w : Byte)
  | illegalHigh40 (w : Byte)
  | illegalHigh20 (w : Byte)
  | illegalHigh10 (w : Byte)
  -- wire frames (R94, R95)
  | sciW (reg : Byte) (v : Half)
  | sciR (reg : Byte)
  -- bytes of a streaming bracket (R97)
  | sdiWriteByte (b : Byte)
  | sdiReadByte
  -- plugin records (R99)
  | pluginLit (addr : Half) (count : BitVec 15)
  | pluginRle (addr : Half) (count : BitVec 15) (value : Half)
  -- application image (R102-R104)
  | appMagic
  | appDataT0 (len addr : Half)
  | appDataT1 (len addr : Half)
  | appDataT2 (len addr : Half)
  | appExec (len addr : Half)
  | appTypeIllegal04 (t : Byte)
  | appTypeIllegal08 (t : Byte)
  | appTypeIllegal10 (t : Byte)
  | appTypeIllegal20 (t : Byte)
  | appTypeIllegal40 (t : Byte)
  | appTypeIllegal80 (t : Byte)
deriving DecidableEq, Repr

/-- An encoded object together with the place the block meets it in, which alone tells its format (R90): the same
eight bits are a command in `CMD`, a byte in a streaming bracket and a type byte in an application image. -/
inductive Encoded where
  /-- The value the host writes to `CMD`. -/
  | command (w : Byte)
  /-- The bytes sent under one `CS_CMD` bracket. -/
  | wire (bytes : List Byte)
  /-- A byte sent in the bracket of a streaming write. -/
  | streamOut (b : Byte)
  /-- A byte sent in the bracket of a streaming read. -/
  | streamIn (b : Byte)
  /-- The words of `SRCW` from a record's start: address, header and, in an RLE record, the value. -/
  | plugin (words : List Half)
  /-- The first bytes of `SRC` in a LOAD_APP. -/
  | magic (bytes : List Byte)
  /-- The bytes of `SRC` from a record's start: type, length, address. -/
  | app (bytes : List Byte)
deriving DecidableEq, Repr

/-- Why an object is no instruction. -/
inductive DecodeError where
  /-- A `CS_CMD` frame that is not four bytes, or whose first byte is not 0x02 or 0x03 (R98). -/
  | badFrame
  /-- A control read frame whose last two bytes are not the filler 0xFF (R95). -/
  | badFiller
  /-- A byte sent in a streaming read that is not the filler 0xFF (R97). -/
  | badStreamFiller
  /-- A plugin or application record cut off before its fixed part ends (R99, R103). -/
  | truncatedRecord
  /-- The first three bytes are not 0x50 0x26 0x48 (R102). -/
  | badMagic
deriving DecidableEq, Repr

end Sys2Proof
end

