-- ==== Sys2Proof/WellFormed.lean ====
section
/-! DEFINITION. Which terms of `Instr` the encodings admit. Field widths are in the types; what remains are the
rows that stand for a range of bytes, whose leading bits opcode_table.json fixes (spec/30_encoding.md R92, R104). -/

namespace Sys2Proof

/-- The byte lies in the range of its row: the row's mask and match. -/
def inRow (mask pattern b : Byte) : Bool := b &&& mask == pattern

def Instr.wellFormed : Instr → Bool
  | .illegalHigh80 w => inRow 0x80 0x80 w
  | .illegalHigh40 w => inRow 0xC0 0x40 w
  | .illegalHigh20 w => inRow 0xE0 0x20 w
  | .illegalHigh10 w => inRow 0xF0 0x10 w
  | .appTypeIllegal04 t => inRow 0xFC 0x04 t
  | .appTypeIllegal08 t => inRow 0xF8 0x08 t
  | .appTypeIllegal10 t => inRow 0xF0 0x10 t
  | .appTypeIllegal20 t => inRow 0xE0 0x20 t
  | .appTypeIllegal40 t => inRow 0xC0 0x40 t
  | .appTypeIllegal80 t => inRow 0x80 0x80 t
  | .waitReady | .ctrlWrite | .ctrlRead | .streamWrite | .streamRead | .ramWrite | .ramRead
  | .regSetBits | .regClearBits | .loadPlugin | .loadApp | .init | .hardReset
  | .illegal00 | .illegal0E | .illegal0F
  | .sciW _ _ | .sciR _ | .sdiWriteByte _ | .sdiReadByte
  | .pluginLit _ _ | .pluginRle _ _ _
  | .appMagic | .appDataT0 _ _ | .appDataT1 _ _ | .appDataT2 _ _ | .appExec _ _ => true

end Sys2Proof
end

