-- ==== Sys2Proof/Decode.lean ====
section
/-! DEFINITION. The decoders of the block's encoded objects, total and rejecting by name, and after them the
encoder, both written from the tables of spec/30_encoding.md. -/

namespace Sys2Proof

open Machine (hi8 lo8 cat16 frameBytes markerBytes)

/-- A `CMD` word (R91, R92): a match on all 8 bits. -/
def decodeCommand (w : Byte) : Instr :=
  match w.toNat with
  | 0x00 => .illegal00
  | 0x01 => .waitReady
  | 0x02 => .ctrlWrite
  | 0x03 => .ctrlRead
  | 0x04 => .streamWrite
  | 0x05 => .streamRead
  | 0x06 => .ramWrite
  | 0x07 => .ramRead
  | 0x08 => .regSetBits
  | 0x09 => .regClearBits
  | 0x0A => .loadPlugin
  | 0x0B => .loadApp
  | 0x0C => .init
  | 0x0D => .hardReset
  | 0x0E => .illegal0E
  | 0x0F => .illegal0F
  | _ =>
    if inRow 0x80 0x80 w then .illegalHigh80 w
    else if inRow 0xC0 0x40 w then .illegalHigh40 w
    else if inRow 0xE0 0x20 w then .illegalHigh20 w
    else .illegalHigh10 w

/-- The bytes of one `CS_CMD` bracket (R94, R95, R98). -/
def decodeWire : List Byte → Except DecodeError Instr
  | [op, reg, b2, b3] =>
    if op = 0x02#8 then .ok (.sciW reg (cat16 b2 b3))
    else if op = 0x03#8 then
      if b2 = 0xFF#8 ∧ b3 = 0xFF#8 then .ok (.sciR reg) else .error .badFiller
    else .error .badFrame
  | _ => .error .badFrame

/-- A byte sent in a streaming read (R97). -/
def decodeStreamIn (b : Byte) : Except DecodeError Instr :=
  if b = 0xFF#8 then .ok .sdiReadByte else .error .badStreamFiller

/-- The words of a plugin record (R99, R100): bit 15 of the header tells the form, bits [14:0] are the count. -/
def decodePlugin : List Half → Except DecodeError Instr
  | addr :: header :: rest =>
    if header.getLsbD 15 then
      match rest with
      | value :: _ => .ok (.pluginRle addr (header.extractLsb' 0 15) value)
      | [] => .error .truncatedRecord
    else .ok (.pluginLit addr (header.extractLsb' 0 15))
  | _ => .error .truncatedRecord

/-- The marker of an application image (R102). -/
def decodeMagic : List Byte → Except DecodeError Instr
  | b0 :: b1 :: b2 :: _ =>
    if b0 = 0x50#8 ∧ b1 = 0x26#8 ∧ b2 = 0x48#8 then .ok .appMagic else .error .badMagic
  | _ => .error .badMagic

/-- A type byte above 3 (R104): the row of opcode_table.json its leading bits select. -/
def decodeBadType (t : Byte) : Instr :=
  if inRow 0x80 0x80 t then .appTypeIllegal80 t
  else if inRow 0xC0 0x40 t then .appTypeIllegal40 t
  else if inRow 0xE0 0x20 t then .appTypeIllegal20 t
  else if inRow 0xF0 0x10 t then .appTypeIllegal10 t
  else if inRow 0xF8 0x08 t then .appTypeIllegal08 t
  else .appTypeIllegal04 t

/-- The header of an application record (R103, R104). The type is judged before the other four bytes are looked
at (spec/60_exceptions.md R281). -/
def decodeApp : List Byte → Except DecodeError Instr
  | [] => .error .truncatedRecord
  | t :: rest =>
    if 3 < t.toNat then .ok (decodeBadType t)
    else match rest with
      | l1 :: l0 :: a1 :: a0 :: _ =>
        match t.toNat with
        | 0 => .ok (.appDataT0 (cat16 l1 l0) (cat16 a1 a0))
        | 1 => .ok (.appDataT1 (cat16 l1 l0) (cat16 a1 a0))
        | 2 => .ok (.appDataT2 (cat16 l1 l0) (cat16 a1 a0))
        | _ => .ok (.appExec (cat16 l1 l0) (cat16 a1 a0))
      | _ => .error .truncatedRecord

/-- The decoder: an object in its place (R90). -/
def decode : Encoded → Except DecodeError Instr
  | .command w => .ok (decodeCommand w)
  | .wire bytes => decodeWire bytes
  | .streamOut b => .ok (.sdiWriteByte b)
  | .streamIn b => decodeStreamIn b
  | .plugin words => decodePlugin words
  | .magic bytes => decodeMagic bytes
  | .app bytes => decodeApp bytes

/-- The header word of a plugin record (R99): `rle` in bit 15, the count in bits [14:0]. -/
def pluginHeader (rle : Bool) (count : BitVec 15) : Half := BitVec.ofBool rle ++ count

/-- An application record's five header bytes (R103). -/
def appHeader (t : Byte) (len addr : Half) : List Byte := [t, hi8 len, lo8 len, hi8 addr, lo8 addr]

/-- The encoder, from the same tables. -/
def encode : Instr → Encoded
  | .waitReady => .command 0x01
  | .ctrlWrite => .command 0x02
  | .ctrlRead => .command 0x03
  | .streamWrite => .command 0x04
  | .streamRead => .command 0x05
  | .ramWrite => .command 0x06
  | .ramRead => .command 0x07
  | .regSetBits => .command 0x08
  | .regClearBits => .command 0x09
  | .loadPlugin => .command 0x0A
  | .loadApp => .command 0x0B
  | .init => .command 0x0C
  | .hardReset => .command 0x0D
  | .illegal00 => .command 0x00
  | .illegal0E => .command 0x0E
  | .illegal0F => .command 0x0F
  | .illegalHigh80 w => .command w
  | .illegalHigh40 w => .command w
  | .illegalHigh20 w => .command w
  | .illegalHigh10 w => .command w
  | .sciW reg v => .wire [0x02, reg, hi8 v, lo8 v]
  | .sciR reg => .wire [0x03, reg, 0xFF, 0xFF]
  | .sdiWriteByte b => .streamOut b
  | .sdiReadByte => .streamIn 0xFF
  | .pluginLit addr count => .plugin [addr, pluginHeader false count]
  | .pluginRle addr count value => .plugin [addr, pluginHeader true count, value]
  | .appMagic => .magic [0x50, 0x26, 0x48]
  | .appDataT0 len addr => .app (appHeader 0x00 len addr)
  | .appDataT1 len addr => .app (appHeader 0x01 len addr)
  | .appDataT2 len addr => .app (appHeader 0x02 len addr)
  | .appExec len addr => .app (appHeader 0x03 len addr)
  | .appTypeIllegal04 t => .app [t]
  | .appTypeIllegal08 t => .app [t]
  | .appTypeIllegal10 t => .app [t]
  | .appTypeIllegal20 t => .app [t]
  | .appTypeIllegal40 t => .app [t]
  | .appTypeIllegal80 t => .app [t]

/-- The object a row of opcode_table.json stands for, from the row's bits numbered as the table numbers them: a
frame or a marker is read as one number, its first byte in the high bits (R94); a plugin row's 16 bits are the header,
the record's second word, its other words being 0; eight bits are a `CMD` word (notes/assumptions/9.md). -/
def tableObject (nbits w : Nat) : Option Encoded :=
  match nbits with
  | 8 => some (.command (BitVec.ofNat 8 w))
  | 16 => some (.plugin [0, BitVec.ofNat 16 w, 0])
  | 24 => some (.magic (markerBytes (BitVec.ofNat 24 w)))
  | 32 => some (.wire (frameBytes (BitVec.ofNat 32 w)))
  | _ => none

/-- What the decoder reads from a table word. -/
def decodeTableWord (nbits w : Nat) : Option Instr :=
  match tableObject nbits w with
  | some e => (decode e).toOption
  | none => none

end Sys2Proof
end

