-- ==== Sys2Proof/Config.lean ====
section
/-! DEFINITION. What the spec leaves to the implementation (spec/00_scope.md R8; spec/92_eei_decisions.md D8,
D11-D13, D18, D19, D35, D46) and the free values of the model. `Params` is the argument list of R8; the machine
carries it in its state, so that a statement about every state holds for every value of every parameter. -/

namespace Sys2Proof

/-- `P_APP_ODD_ADVANCE` (R8, R105): where the next application record starts after an odd-length payload. -/
inductive OddAdvance where
  | full
  | even
deriving DecidableEq, Repr

/-- The implementation parameters of R8. The step never changes them. -/
structure Params where
  /-- `P_REG_MODE`: the mode register's address; read only by the assembler forms MODESET and MODECLR (R109). -/
  regMode : Byte
  /-- `P_REG_CLOCKF`. -/
  regClockf : Byte
  /-- `P_REG_WRAM`: the RAM-data register. -/
  regWram : Byte
  /-- `P_REG_WRAMADDR`: the RAM-address register. -/
  regWramAddr : Byte
  /-- `P_REG_AIADDR`: the activation register. -/
  regAiaddr : Byte
  /-- `P_REG_VOL`. -/
  regVol : Byte
  /-- `P_INIT_CLOCKF`. -/
  initClockf : Half
  /-- `P_INIT_VOL`. -/
  initVol : Half
  /-- `P_READY_TIMEOUT`: `none` waits for ever, `some n` fails after `n` low samples, `n ≥ 1` (D8). -/
  readyTimeout : Option Nat
  /-- `P_POLL_INTERVAL` in microseconds; timing only, no rule reads it (R316). -/
  pollIntervalUs : Nat
  /-- `P_RESET_ASSERT_MIN` in milliseconds. -/
  resetAssertMs : Nat
  /-- `P_RESET_RECOVER_MIN` in milliseconds. -/
  resetRecoverMs : Nat
  /-- `P_RESET_ACTIVE_LOW` (D13): the electrical level of ASSERT. -/
  resetActiveLow : Bool
  /-- `P_APP_ODD_ADVANCE` (D18). -/
  oddAdvance : OddAdvance
  /-- `P_COMPAT_SILENT_TYPE` (D19). -/
  silentType : Bool
  /-- `P_SCK_HZ`; timing only, no rule reads it (D35). -/
  sckHz : Nat
  /-- `P_SRC_CAP`, in bytes (D46). -/
  srcCap : Nat
  /-- `P_SRCW_CAP`, in 16-bit words (D46). -/
  srcwCap : Nat
  /-- `P_DST_CAP`, in bytes (D46). -/
  dstCap : Nat
deriving DecidableEq, Repr

namespace Config

/-! ### OPEN parameters: constants with no body (notes/assumptions/1.md) -/

opaque regMode : Byte
opaque regClockf : Byte
opaque regWram : Byte
opaque regWramAddr : Byte
opaque regAiaddr : Byte
opaque regVol : Byte
opaque initClockf : Half
opaque initVol : Half
/-- `P_READY_TIMEOUT` less one, so that a timeout is at least 1 (D8). -/
opaque readyTimeoutLess1 : Option Nat
opaque resetActiveLow : Bool
opaque sckHz : Nat
/-- The capacities less one: each is at least 1 (D46). -/
opaque srcCapLess1 : Nat
opaque srcwCapLess1 : Nat
opaque dstCapLess1 : Nat

/-- The parameters of the machine after reset: OPEN ones are the constants above; the others hold the value the
source or the spec gives (R8: 10 microseconds, 10 ms, 100 ms, `FULL`, `false`). -/
def params : Params where
  regMode := regMode
  regClockf := regClockf
  regWram := regWram
  regWramAddr := regWramAddr
  regAiaddr := regAiaddr
  regVol := regVol
  initClockf := initClockf
  initVol := initVol
  readyTimeout := readyTimeoutLess1.map (· + 1)
  pollIntervalUs := 10
  resetAssertMs := 10
  resetRecoverMs := 100
  resetActiveLow := resetActiveLow
  oddAdvance := .full
  silentType := false
  sckHz := sckHz
  srcCap := srcCapLess1 + 1
  srcwCap := srcwCapLess1 + 1
  dstCap := dstCapLess1 + 1

/-! ### Free values: constants with no body, applied to a counter of the state or to an index -/

/-- The chip's answer to the `k`-th READY sample, where the state lists none (R291; notes/assumptions/3.md). -/
opaque readyFree : Nat → Bool
/-- The chip's byte in the `k`-th transfer, where the state lists none (R291; notes/assumptions/3.md). -/
opaque misoFree : Nat → Byte
/-- What an element of `SRC`, `SRCW`, `DST` that nothing has written reads as (R300, 93 U17; notes/assumptions/4.md). -/
opaque srcPowerOn : Nat → Byte
opaque srcwPowerOn : Nat → Half
opaque dstPowerOn : Nat → Byte
/-- Which of the admitted values the `k`-th read of a raced source element returns (R82; notes/assumptions/5.md). -/
opaque raceChoice : Nat → Nat
/-- What `DST` holds or reads as where the host touches it while busy (93 U9; notes/assumptions/6.md). -/
opaque dstRace : Nat → Byte
/-- `XCOUNT` after a count that 32 bits cannot hold (notes/assumptions/7.md). -/
opaque countOverflow : Nat → Long

end Config

end Sys2Proof
end

