-- ==== Sys2Proof/Machine/State.lean ====
section
/-! DEFINITION. The state of the Serial Transaction Engine (spec/10_state.md, spec/70_reset_and_hazards.md R300) as
plain data, the events of its bus trace, the position inside the running command's pseudocode, and the reset state. -/

namespace Sys2Proof.Machine

/-- Why the machine stops. -/
inductive Fault where
  /-- Raised by a host access to an element of `SRC`, `SRCW` or `DST` at or above the buffer's capacity: the spec
  gives the buffers the indices 0 to capacity less one (R29). Safe: the model stops where the spec says nothing. -/
  | bufferIndex
deriving DecidableEq, Repr

/-- Why an instruction has no meaning. -/
inductive Refusal where
  /-- Raised by an arm of `exec` whose instruction has no meaning yet; no arm does. Safe. -/
  | notModelled (mnemonic : String)
deriving DecidableEq, Repr

/-- Error codes (R271). Codes 7 to 15 are never produced, so they are no constructor. -/
inductive ErrCode where
  | ok
  | timeout
  | invalidFormat
  | outOfBounds
  | invalidArgument
  | illegalCommand
  | notInitialized
deriving DecidableEq, Repr

/-- The value of `CS_CMD` or `CS_DATA` (R21). -/
inductive SelLevel where
  | z
  | low
  | high
deriving DecidableEq, Repr

/-- What `SetReset` drives (R11). -/
inductive ResetDrive where
  | asserted
  | deasserted
deriving DecidableEq, Repr

/-- The value of `RESET` (R21). -/
inductive ResetLevel where
  | z
  | driven (d : ResetDrive)
deriving DecidableEq, Repr

/-- The two select lines (R11). -/
inductive Line where
  | cmd
  | data
deriving DecidableEq, Repr

/-- The events of the bus trace (R40). -/
inductive BusEvent where
  | cfgPins
  | cfgSpi
  /-- `RDY(v)`. -/
  | rdy (v : Bool)
  /-- `SEL(L, v)`; `high = true` is v = 1. -/
  | sel (l : Line) (high : Bool)
  /-- `XFER(o, i)`. -/
  | xfer (o i : Byte)
  /-- `RST(a)`. -/
  | rst (a : ResetDrive)
  /-- `DLY(t)`, `t` in milliseconds. -/
  | dly (ms : Nat)
deriving DecidableEq, Repr

/-- A completion entry (R42). `dst` holds the bytes `DST[0 .. XCOUNT-1]` for STREAM_READ and is empty otherwise. -/
structure Completion where
  cmd : Byte
  err : ErrCode
  result : Half
  xcount : Long
  errPos : Long
  dst : List Byte
deriving DecidableEq, Repr

/-- Where a received byte goes in a control frame (R96). -/
inductive Dest where
  | discard
  | hi
  | lo
deriving DecidableEq, Repr

/-- Direction of a stream: `out` for STREAM_WRITE, `inward` for STREAM_READ. -/
inductive Dir where
  | out
  | inward
deriving DecidableEq, Repr

/-- Read-modify-write operation (R185). -/
inductive Rmw where
  | set
  | clear
deriving DecidableEq, Repr

/-- What a successful completion writes besides `STATUS.ERR` and `ERR_POS`. -/
inductive Written where
  /-- Neither `RESULT` nor `XCOUNT`. -/
  | nothing
  /-- `RESULT` with the value of the last control read, `HI ++ LO`. -/
  | readValue
  /-- `RESULT` with the value a read-modify-write wrote. -/
  | modified (op : Rmw)
  /-- `XCOUNT` with the count `XC`. -/
  | count
  /-- `XCOUNT` with the count `XC`, and `DST` with the bytes received (R78, R166). -/
  | received
deriving DecidableEq, Repr

/-- One item of the pseudocode still to be run: the finer phase inside EXEC that R30 lets a model keep. -/
inductive Micro where
  /-- Run the command `L_CMD` names (R27, R91). -/
  | command
  /-- The loop of `Gate()` (R131): one `SampleReady`, which ends the loop when it reads 1. -/
  | gate
  /-- `POLLS <- POLLS + 1` after a sample of 0, and TIMEOUT at the limit (R131, R272). -/
  | polled
  /-- `CtrlWrite(reg, v)` (R141). -/
  | writeFrame (reg : Byte) (v : Half)
  /-- `CtrlRead(reg)` (R146). -/
  | readFrame (reg : Byte)
  /-- `Sel(L, v)`. -/
  | sel (l : Line) (high : Bool)
  /-- `Xfer(b)` of a control frame. -/
  | xfer (b : Byte) (d : Dest)
  /-- The loop of a streaming bracket (R161, R166): while `XC < L_LEN`, sample READY. -/
  | stream (d : Dir)
  /-- `SrcByte(XC)`, after a sample of 1 in a streaming write. -/
  | fetchByte
  /-- `Xfer(b)` of a streaming write. -/
  | sendByte (b : Byte)
  /-- `Xfer(0xFF)` of a streaming read, after a sample of 1. -/
  | receiveByte
  /-- `DstByte(XC) <- r` of a streaming read. -/
  | storeByte (r : Byte)
  /-- `Cfg(PINS)`. -/
  | cfgPins
  /-- `Cfg(SPI)`. -/
  | cfgSpi
  /-- `INIT_DONE <- 1` and `LINES.CFG <- 1` (R251). -/
  | setInitDone
  /-- `SetReset(a)`. -/
  | setReset (a : ResetDrive)
  /-- `Delay(t)`, `t` in milliseconds. -/
  | delay (ms : Nat)
  /-- `RD <- HI ++ LO`, then `CtrlWrite(L_REG, op RD L_A)` (R187, R190). -/
  | modify (op : Rmw)
  /-- The marker check of LOAD_APP (R222), with the bytes read so far. -/
  | magicBytes (got : List Byte)
  /-- The loop of LOAD_APP (R221). -/
  | appRecord
  /-- The header of an application record (R103), with the bytes read so far. -/
  | appBytes (got : List Byte)
  /-- The loop of LOAD_PLUGIN (R201). -/
  | pluginRecord
  /-- The fixed words of a plugin record (R99), with the words read so far. -/
  | pluginWords (got : List Half)
  /-- `repeat REC_CNT` of an RLE record, at repetition `j` (R203). -/
  | rleData (j : Nat)
  /-- `for j in 0 .. REC_CNT - 1` of a literal record (R204). -/
  | litData (j : Nat)
  /-- `for j in 0 .. floor(REC_LEN / 2) - 1` of an application data record (R227). -/
  | appData (j : Nat)
  /-- The second `SrcByte` of a payload word, whose high byte is `h` (R227). -/
  | appLow (j : Nat) (h : Byte)
  /-- `XC <- XC + 1` after a RAM-data write. -/
  | countData
  /-- `CUR <- CUR + n`. -/
  | advance (n : Nat)
  /-- `complete(ERR = OK, ERR_POS = 0, ...)`. -/
  | complete (w : Written)
deriving DecidableEq, Repr

/-- One access of the host (R23, R24, R29). -/
inductive HostAct where
  /-- `HW n, v`. -/
  | write (n : Nat) (v : Long)
  /-- `HR n`. -/
  | read (n : Nat)
  | writeSrc (i : Nat) (b : Byte)
  | writeSrcw (i : Nat) (w : Half)
  | writeDst (i : Nat) (b : Byte)
  | readDst (i : Nat)
deriving DecidableEq, Repr

/-- The agenda: which agent acts next, as plain data (R15; notes/assumptions/2.md). -/
inductive Turn where
  /-- The host makes one access. -/
  | host (a : HostAct)
  /-- The engine acts, for at most `grant + 1` engine steps. -/
  | engine (grant : Nat)
  /-- `WAITDONE` (R109): the host reads STATUS until BUSY = 0; the engine acts between two reads. -/
  | waitDone
deriving DecidableEq, Repr

/-- A memory as a list of index and value, indices rising (R29). -/
abbrev Buffer (α : Type) := List (Nat × α)

/-- The state. -/
structure State where
  /-- The parameters (R8). -/
  params : Params
  /-- `CS_CMD`, `CS_DATA`, `RESET` (R20, R21). -/
  csCmd : SelLevel
  csData : SelLevel
  resetLine : ResetLevel
  /-- The serial channel is configured: MSB first, idle-low clock, leading-edge sampling (R22, R260). -/
  spiOn : Bool
  /-- Host-visible registers (R24). `CMD` reads 0 and keeps nothing; `STATUS` and `LINES` are computed. -/
  argReg : Byte
  argA : Half
  argB : Half
  bufLen : Long
  result : Half
  xcount : Long
  errPos : Long
  /-- `STATUS.ERR`, `STATUS.INIT_DONE`, `STATUS.OVR` (R25). -/
  err : ErrCode
  initDone : Bool
  ovr : Bool
  /-- `LINES.CFG`, `LINES.LAST_RDY` (R28, R36). -/
  cfg : Bool
  lastRdy : Bool
  /-- Latched operands (R32). -/
  lCmd : Byte
  lReg : Byte
  lA : Half
  lB : Half
  lLen : Long
  /-- `PH` with its finer phase (R30): the pseudocode still to be run; IDLE, and BUSY = 0, exactly when it is empty. -/
  todo : List Micro
  /-- Datapath registers (R33). -/
  cur : Nat
  recAddr : Half
  recHdr : Half
  recCnt : Half
  recVal : Half
  recType : Byte
  recLen : Half
  hi : Byte
  lo : Byte
  rd : Half
  polls : Nat
  xc : Nat
  /-- The buffers (R29). `src` is a list of `Host.Cell`. -/
  src : List Host.Cell
  srcw : Buffer Half
  dst : List Host.Cell
  /-- What `DstByte` has written in the running STREAM_READ; its completion puts it into `DST` (R78). -/
  dstIn : List Host.Cell
  /-- Old values of source elements the host wrote while BUSY = 1 (R82). -/
  srcOld : List (Nat × Byte)
  srcwOld : List (Nat × Half)
  /-- The bus trace and the completion list (R40-R42). -/
  trace : List BusEvent
  completions : List Completion
  /-- Model fields: the chip's next READY samples and next bytes, as far as listed, and how many it has given. -/
  rdyIn : List Bool
  rdyCount : Nat
  misoIn : List Byte
  misoCount : Nat
  /-- Model field: how many other free values have been used. -/
  freeCount : Nat
  /-- Model fields: who acts next, how many engine steps beyond the first one turn may take, what the host has read. -/
  agenda : List Turn
  grant : Nat
  reads : List Long
deriving DecidableEq, Repr

/-- Power-on (R300). The datapath registers, which R300 leaves unspecified, hold 0 (notes/assumptions/8.md). -/
def State.reset : State where
  params := Config.params
  csCmd := .z
  csData := .z
  resetLine := .z
  spiOn := false
  argReg := 0
  argA := 0
  argB := 0
  bufLen := 0
  result := 0
  xcount := 0
  errPos := 0
  err := .ok
  initDone := false
  ovr := false
  cfg := false
  lastRdy := false
  lCmd := 0
  lReg := 0
  lA := 0
  lB := 0
  lLen := 0
  todo := []
  cur := 0
  recAddr := 0
  recHdr := 0
  recCnt := 0
  recVal := 0
  recType := 0
  recLen := 0
  hi := 0
  lo := 0
  rd := 0
  polls := 0
  xc := 0
  src := []
  srcw := []
  dst := []
  dstIn := []
  srcOld := []
  srcwOld := []
  trace := []
  completions := []
  rdyIn := []
  rdyCount := 0
  misoIn := []
  misoCount := 0
  freeCount := 0
  agenda := []
  grant := 0
  reads := []

end Sys2Proof.Machine
end

