-- ==== Sys2Proof/Machine/Flags.lean ====
section
/-! DEFINITION. The status bits and the two computed host registers: STATUS (spec/10_state.md R25, R26, R271) and
LINES (R28), and the electrical level of the reset output (R21). -/

namespace Sys2Proof.Machine

/-- `STATUS.ERR` as a number (R271). -/
def ErrCode.code : ErrCode → BitVec 4
  | .ok => 0
  | .timeout => 1
  | .invalidFormat => 2
  | .outOfBounds => 3
  | .invalidArgument => 4
  | .illegalCommand => 5
  | .notInitialized => 6

/-- `BUSY` (R25, R26, R30): 1 exactly while a command runs. -/
def State.busy (s : State) : Bool := !s.todo.isEmpty

/-- The STATUS register (R25): ERR in [7:4], bit 3 reads 0, OVR, INIT_DONE, BUSY. -/
def State.statusWord (s : State) : Byte :=
  s.err.code ++ (0#1 ++ (BitVec.ofBool s.ovr ++ (BitVec.ofBool s.initDone ++ BitVec.ofBool s.busy)))

/-- A select line reads 1 in LINES when it is driven high (R28). -/
def SelLevel.isHigh (l : SelLevel) : Bool := decide (l = .high)

/-- A select line is asserted when it is driven low (R21). -/
def SelLevel.isLow (l : SelLevel) : Bool := decide (l = .low)

/-- The LINES register (R28): bits [7:5] read 0; bits [3:1] read 0 while CFG is 0. -/
def State.linesWord (s : State) : Byte :=
  0#3 ++ (BitVec.ofBool s.lastRdy ++
    (BitVec.ofBool (s.cfg && decide (s.resetLine = .driven .asserted)) ++
      (BitVec.ofBool (s.cfg && s.csData.isHigh) ++
        (BitVec.ofBool (s.cfg && s.csCmd.isHigh) ++ BitVec.ofBool s.cfg))))

/-- The level on the `RESET` pin, `none` where it is not driven (R21, `P_RESET_ACTIVE_LOW`). -/
def State.resetPin (s : State) : Option Bool :=
  match s.resetLine with
  | .z => none
  | .driven .asserted => some (!s.params.resetActiveLow)
  | .driven .deasserted => some s.params.resetActiveLow

/-- The level of `SCK` between two transfers: low once the channel is configured, not driven before (R67, R300). -/
def State.sckIdle (s : State) : Option Bool := if s.spiOn then some false else none

/-- What a host read of register `n` returns (R24): unused high bits 0, CMD 0, numbers above 9 give 0. -/
def State.hostRegister (s : State) (n : Nat) : Long :=
  match n with
  | 1 => s.statusWord.zeroExtend 32
  | 2 => s.argReg.zeroExtend 32
  | 3 => s.argA.zeroExtend 32
  | 4 => s.argB.zeroExtend 32
  | 5 => s.bufLen
  | 6 => s.result.zeroExtend 32
  | 7 => s.xcount
  | 8 => s.errPos
  | 9 => s.linesWord.zeroExtend 32
  | _ => 0

end Sys2Proof.Machine
end

