-- ==== Sys2Proof/Machine/Operands.lean ====
section
/-! DEFINITION. The operand forms: latched operands (spec/30_encoding.md R93), the image fields computed from them
(R105), and the read-modify-write functions (spec/43_register_map.md R187, R190). -/

namespace Sys2Proof.Machine

/-- A control-register address: `L_REG[7:0]` (R93). -/
def State.regOperand (s : State) : Byte := s.lReg

/-- A 16-bit value, mask or chip-memory address: `L_A[15:0]` (R93). -/
def State.valueOperand (s : State) : Half := s.lA

/-- The RAM_WRITE value: `L_B[15:0]` (R93). -/
def State.secondOperand (s : State) : Half := s.lB

/-- A buffer length: `L_LEN`, an unbounded natural in all arithmetic (R10, R93). -/
def State.len (s : State) : Nat := s.lLen.toNat

/-- The value a read-modify-write writes: `v | mask` or `v & ~mask` (R187, R190). -/
def Rmw.apply : Rmw → Half → Half → Half
  | .set, v, mask => v ||| mask
  | .clear, v, mask => v &&& ~~~mask

/-- `floor(length / 2)`: the payload words of an application data record (R105). -/
def payloadWords (len : Half) : Nat := len.toNat / 2

/-- `adv(length)`: the payload bytes the record occupies (R105). -/
def advBytes (o : OddAdvance) (len : Half) : Nat :=
  match o with
  | .full => len.toNat
  | .even => 2 * (len.toNat / 2)

/-- The value of a finished control read: `HI ++ LO` (R146). -/
def State.readBack (s : State) : Half := cat16 s.hi s.lo

/-- `XCOUNT` from a count: the count itself where 32 bits hold it, else a free value (notes/assumptions/7.md). -/
def countRegister (n : Nat) : Long := if n < 2 ^ 32 then BitVec.ofNat 32 n else Config.countOverflow n

/-- The commands whose completion writes `XCOUNT` in error as well: STREAM_WRITE, STREAM_READ, LOAD_PLUGIN, LOAD_APP
(R257, R275). -/
def countsTransfers (cmd : Byte) : Bool := cmd == 0x04 || cmd == 0x05 || cmd == 0x0A || cmd == 0x0B

/-- `POSNOW` (R275): the current record's start while a loader runs, else 0. -/
def State.posNow (s : State) : Nat := if s.lCmd == 0x0A || s.lCmd == 0x0B then s.cur else 0

end Sys2Proof.Machine
end

