-- ==== Sys2Proof/Machine/Ops.lean ====
section
/-! DEFINITION. The named operations the meanings share: the buffers (spec/10_state.md R29), the bus primitives of
spec/00_scope.md R11, error entry and completion (spec/60_exceptions.md R275; R26), and the host's accesses (R24, R27). -/

namespace Sys2Proof.Machine

/-! ### Buffers -/

/-- The canonical form: indices strictly rising. An unlisted index holds no written value, so no entry can repeat
what an unlisted index reads as (notes/assumptions/4.md). -/
abbrev BufferWf {α : Type} (m : Buffer α) : Prop := m.Pairwise fun a b => a.1 < b.1

/-- The value written at index `i`, if any. -/
def readBuffer {α : Type} : Buffer α → Nat → Option α
  | [], _ => none
  | (k, v) :: m, i => if k = i then some v else readBuffer m i

/-- Write `v` at index `i`, keeping the canonical form. -/
def writeBuffer {α : Type} : Buffer α → Nat → α → Buffer α
  | [], i, v => [(i, v)]
  | (k, u) :: m, i, v =>
    if i < k then (i, v) :: (k, u) :: m
    else if i = k then (i, v) :: m
    else (k, u) :: writeBuffer m i v

/-- `SRC[i]` as it stands. -/
def State.srcAt (s : State) (i : Nat) : Byte := (readBuffer s.src i).getD (Config.srcPowerOn i)

/-- `SRCW[i]` as it stands. -/
def State.srcwAt (s : State) (i : Nat) : Half := (readBuffer s.srcw i).getD (Config.srcwPowerOn i)

/-- `DST[i]` as it stands. -/
def State.dstAt (s : State) (i : Nat) : Byte := (readBuffer s.dst i).getD (Config.dstPowerOn i)

/-- The values other than the present one that a read of element `i` may still return: what it held before the
writes made to it while the command runs (R82). -/
def oldValues {α : Type} (old : List (Nat × α)) (i : Nat) : List α :=
  (old.filter fun e => e.1 == i).map fun e => e.2

/-- A read of a source element (R63, R82): its value, or, where the host wrote it during the command, one of the
values it held, which one being free. -/
def raced {α : Type} (now : α) (old : List α) (choice : Nat) : α :=
  (now :: old).getD (choice % (old.length + 1)) now

/-- `SrcByte(i)` (R63). -/
def srcByte (i : Nat) (s : State) : Byte × State :=
  match oldValues s.srcOld i with
  | [] => (s.srcAt i, s)
  | old => (raced (s.srcAt i) old (Config.raceChoice s.freeCount), { s with freeCount := s.freeCount + 1 })

/-- `SrcWord(i)` (R63). -/
def srcWord (i : Nat) (s : State) : Half × State :=
  match oldValues s.srcwOld i with
  | [] => (s.srcwAt i, s)
  | old => (raced (s.srcwAt i) old (Config.raceChoice s.freeCount), { s with freeCount := s.freeCount + 1 })

/-! ### The pseudocode still to be run -/

/-- Leave the item at the head of the pseudocode behind. -/
def State.pop (s : State) : State := { s with todo := s.todo.tail }

/-- Put items before the rest of the pseudocode. -/
def State.push (s : State) (ms : List Micro) : State := { s with todo := ms ++ s.todo }

/-! ### Bus primitives (R11) -/

/-- Append an event to the trace (R40, R41). -/
def State.emit (s : State) (e : BusEvent) : State := { s with trace := s.trace ++ [e] }

/-- The chip's `k`-th READY answer from here: a listed one, else a free draw (R291). -/
def State.readyAt (s : State) (k : Nat) : Bool := (s.rdyIn[k]?).getD (Config.readyFree (s.rdyCount + k))

/-- The chip's `k`-th byte from here: a listed one, else a free draw (R291). -/
def State.misoAt (s : State) (k : Nat) : Byte := (s.misoIn[k]?).getD (Config.misoFree (s.misoCount + k))

/-- `SampleReady()`: appends `RDY(v)` and keeps `v` in LAST_RDY (R11, R36). -/
def sampleReady (s : State) : Bool × State :=
  (s.readyAt 0,
    { s with rdyIn := s.rdyIn.tail, rdyCount := s.rdyCount + 1, lastRdy := s.readyAt 0,
             trace := s.trace ++ [.rdy (s.readyAt 0)] })

/-- `Sel(L, v)`. -/
def driveSelect (l : Line) (high : Bool) (s : State) : State :=
  match l with
  | .cmd => { s with csCmd := if high then .high else .low, trace := s.trace ++ [.sel .cmd high] }
  | .data => { s with csData := if high then .high else .low, trace := s.trace ++ [.sel .data high] }

/-- `Xfer(b) -> r`. -/
def transfer (b : Byte) (s : State) : Byte × State :=
  (s.misoAt 0,
    { s with misoIn := s.misoIn.tail, misoCount := s.misoCount + 1, trace := s.trace ++ [.xfer b (s.misoAt 0)] })

/-- Keep a byte received in a control frame (R96). -/
def keepByte (d : Dest) (r : Byte) (s : State) : State :=
  match d with
  | .discard => s
  | .hi => { s with hi := r }
  | .lo => { s with lo := r }

/-- `SetReset(a)`. -/
def driveReset (a : ResetDrive) (s : State) : State :=
  { s with resetLine := .driven a, trace := s.trace ++ [.rst a] }

/-- `Cfg(PINS)`: both selects high and RESET asserted, in the same event (R40, R251). -/
def configurePins (s : State) : State :=
  { s with csCmd := .high, csData := .high, resetLine := .driven .asserted, trace := s.trace ++ [.cfgPins] }

/-- `Cfg(SPI)` (R251, R260). -/
def configureSpi (s : State) : State := { s with spiOn := true, trace := s.trace ++ [.cfgSpi] }

/-- `Delay(t)` (R315). -/
def delayFor (ms : Nat) (s : State) : State := s.emit (.dly ms)

/-- `DstByte(i) <- b` (R11): held until the completion, which writes `DST` (R78). -/
def storeDst (i : Nat) (b : Byte) (s : State) : State := { s with dstIn := writeBuffer s.dstIn i b }

/-- A memory `m` after the elements listed in `new` have been written to it. -/
def commit {α : Type} (new m : Buffer α) : Buffer α := new.foldr (fun e d => writeBuffer d e.1 e.2) m

/-- `DST` with what `DstByte` has written (R78). -/
def State.commitDst (s : State) : State := { s with dst := commit s.dstIn s.dst }

/-! ### Completion and error entry -/

/-- The end of a command, one atomic update (R26, R42): the completion registers are written with `BUSY <- 0`, and
the completion entry is listed. `result` and `count` are the values of `RESULT` and `XC` where the command writes
those registers. -/
def finish (e : ErrCode) (pos : Nat) (result : Option Half) (count : Option Nat) (s : State) : State :=
  { s with
    err := e
    errPos := BitVec.ofNat 32 pos
    result := result.getD s.result
    xcount := (count.map countRegister).getD s.xcount
    todo := []
    dstIn := []
    srcOld := []
    srcwOld := []
    completions := s.completions ++
      [{ cmd := s.lCmd
         err := e
         result := result.getD s.result
         xcount := (count.map countRegister).getD s.xcount
         errPos := BitVec.ofNat 32 pos
         dst := if s.lCmd == 0x05 then (List.range (count.getD 0)).map s.dstAt else [] }] }

/-- `raise E(pos)` (R275): ends the command; `XCOUNT <- XC` for the stream and load commands; `DST` as STREAM_READ
has written it; `RESULT` is kept. -/
def raise (e : ErrCode) (pos : Nat) (s : State) : State :=
  finish e pos none (if countsTransfers s.lCmd then some s.xc else none)
    { s with dst := if s.lCmd == 0x05 then commit s.dstIn s.dst else s.dst }

/-- `complete(ERR = OK, ERR_POS = 0, ...)` (R26). -/
def complete (w : Written) (s : State) : State :=
  match w with
  | .nothing => finish .ok 0 none none s
  | .readValue => finish .ok 0 (some s.readBack) none s
  | .modified op => finish .ok 0 (some (op.apply s.rd s.valueOperand)) none s
  | .count => finish .ok 0 none (some s.xc) s
  | .received => finish .ok 0 none (some s.xc) s.commitDst

/-- Run `k` when INIT has been done, else refuse the command (R257, R278). -/
def whenInitialized (s : State) (k : State → State) : State :=
  if s.initDone then k s else raise .notInitialized 0 s

/-- Run `k` when the buffer operand fits its memory, else refuse the command (R276). -/
def whenFits (cap : Nat) (s : State) (k : State → State) : State :=
  if cap < s.len then raise .invalidArgument 0 s else k s

/-- `Gate()` from its first line (R131): `POLLS <- 0`, then the polling loop, then `rest`. -/
def State.gated (s : State) (rest : List Micro) : State := { s with polls := 0, todo := .gate :: (rest ++ s.todo) }

/-- One sample in the loop of `Gate()` (R131): a 1 returns; a 0 is counted next. -/
def gateStep (s : State) : State :=
  if (sampleReady s).1 then (sampleReady s).2.pop else (sampleReady s).2.push [.polled]

/-- A sample of 0 counted (R131): TIMEOUT at the limit (R272), else the next sample follows. -/
def pollStep (s : State) : State :=
  let u := { s.pop with polls := s.polls + 1 }
  match u.params.readyTimeout with
  | some n => if n ≤ u.polls then raise .timeout u.posNow u else u
  | none => u

/-- `HardReset()` (R252). -/
def hardResetItems (p : Params) : List Micro :=
  [.setReset .asserted, .delay p.resetAssertMs, .setReset .deasserted, .delay p.resetRecoverMs]

/-! ### The host's accesses -/

/-- Record what the host read. -/
def State.logRead (s : State) (v : Long) : State := { s with reads := s.reads ++ [v] }

/-- The accept (R27, R32): BUSY becomes 1 and the operands are latched, in one step. -/
def accept (w : Byte) (s : State) : State :=
  { s with lCmd := w, lReg := s.argReg, lA := s.argA, lB := s.argB, lLen := s.bufLen, todo := [.command] }

/-- A host write of `CMD` (R27): accepted when idle; while busy it is ignored and sets OVR. -/
def writeCmd (w : Byte) (s : State) : State := if s.busy then { s with ovr := true } else accept w s

/-- `HW n, v` (R24): read-only registers and numbers above 9 ignore it. -/
def hostWrite (n : Nat) (v : Long) (s : State) : State :=
  match n with
  | 0 => writeCmd (v.extractLsb' 0 8) s
  | 2 => { s with argReg := v.extractLsb' 0 8 }
  | 3 => { s with argA := v.extractLsb' 0 16 }
  | 4 => { s with argB := v.extractLsb' 0 16 }
  | 5 => { s with bufLen := v }
  | _ => s

/-- The host writes `SRC[i]`; while busy the old value stays admitted for the command's reads (R82). -/
def hostWriteSrc (i : Nat) (b : Byte) (s : State) : State :=
  { s with src := writeBuffer s.src i b, srcOld := if s.busy then (i, s.srcAt i) :: s.srcOld else s.srcOld }

/-- The host writes `SRCW[i]` (R82). -/
def hostWriteSrcw (i : Nat) (w : Half) (s : State) : State :=
  { s with srcw := writeBuffer s.srcw i w, srcwOld := if s.busy then (i, s.srcwAt i) :: s.srcwOld else s.srcwOld }

/-- The host writes `DST[i]`; while busy the element's value is free (R306, 93 U9). -/
def hostWriteDst (i : Nat) (b : Byte) (s : State) : State :=
  if s.busy then
    { s with dst := writeBuffer s.dst i (Config.dstRace s.freeCount), freeCount := s.freeCount + 1 }
  else { s with dst := writeBuffer s.dst i b }

/-- The host reads `DST[i]`; while busy what it reads is free (R306, 93 U9). -/
def hostReadDst (i : Nat) (s : State) : State :=
  if s.busy then { (s.logRead ((Config.dstRace s.freeCount).zeroExtend 32)) with freeCount := s.freeCount + 1 }
  else s.logRead ((s.dstAt i).zeroExtend 32)

/-- One host access. An element index at or above the capacity is no element (R29). -/
def hostAccess (a : HostAct) (s : State) : Host.Outcome State Fault Refusal :=
  match a with
  | .write n v => .next (hostWrite n v s)
  | .read n => .next (s.logRead (s.hostRegister n))
  | .writeSrc i b => if i < s.params.srcCap then .next (hostWriteSrc i b s) else .fault .bufferIndex
  | .writeSrcw i w => if i < s.params.srcwCap then .next (hostWriteSrcw i w s) else .fault .bufferIndex
  | .writeDst i b => if i < s.params.dstCap then .next (hostWriteDst i b s) else .fault .bufferIndex
  | .readDst i => if i < s.params.dstCap then .next (hostReadDst i s) else .fault .bufferIndex

end Sys2Proof.Machine
end

