-- ==== Sys2Proof/Machine/Commands.lean ====
section
/-! DEFINITION. The pseudocode of the host commands: the first engine step of each, which makes the checks of
spec/60_exceptions.md R280 in their order and lays out the primitives that follow, as the command's rule lists them. -/

namespace Sys2Proof.Machine

/-- WAIT_READY (R133). -/
def startWaitReady (s : State) : State :=
  whenInitialized s fun s => s.gated [.complete .nothing]

/-- CTRL_WRITE (R142). -/
def startCtrlWrite (s : State) : State :=
  whenInitialized s fun s => s.push [.writeFrame s.regOperand s.valueOperand, .complete .nothing]

/-- CTRL_READ (R147). -/
def startCtrlRead (s : State) : State :=
  whenInitialized s fun s => s.push [.readFrame s.regOperand, .complete .readValue]

/-- STREAM_WRITE (R161). -/
def startStreamWrite (s : State) : State :=
  whenInitialized { s with xc := 0 } fun s =>
    whenFits s.params.srcCap s fun s =>
      s.gated [.sel .data false, .stream .out, .sel .data true, .complete .count]

/-- STREAM_READ (R166). -/
def startStreamRead (s : State) : State :=
  whenInitialized { s with xc := 0, dstIn := [] } fun s =>
    whenFits s.params.dstCap s fun s =>
      s.gated [.sel .data false, .stream .inward, .sel .data true, .complete .received]

/-- RAM_WRITE (R181). -/
def startRamWrite (s : State) : State :=
  whenInitialized s fun s =>
    s.push [.writeFrame s.params.regWramAddr s.valueOperand, .writeFrame s.params.regWram s.secondOperand,
      .complete .nothing]

/-- RAM_READ (R184). -/
def startRamRead (s : State) : State :=
  whenInitialized s fun s =>
    s.push [.writeFrame s.params.regWramAddr s.valueOperand, .readFrame s.params.regWram, .complete .readValue]

/-- REG_SET_BITS (R187). -/
def startRegSetBits (s : State) : State :=
  whenInitialized s fun s => s.push [.readFrame s.regOperand, .modify .set, .complete (.modified .set)]

/-- REG_CLEAR_BITS (R190). -/
def startRegClearBits (s : State) : State :=
  whenInitialized s fun s => s.push [.readFrame s.regOperand, .modify .clear, .complete (.modified .clear)]

/-- LOAD_PLUGIN (R201). -/
def startLoadPlugin (s : State) : State :=
  whenInitialized { s with xc := 0 } fun s =>
    whenFits s.params.srcwCap s fun s =>
      { s with cur := 0, todo := .pluginRecord :: .complete .count :: s.todo }

/-- LOAD_APP (R221, R222). -/
def startLoadApp (s : State) : State :=
  whenInitialized { s with xc := 0 } fun s =>
    whenFits s.params.srcCap s fun s =>
      if s.len < 3 then raise .invalidFormat 0 s else s.push [.magicBytes [], .appRecord, .complete .count]

/-- INIT (R251): never refused. -/
def startInit (s : State) : State :=
  s.push ([.cfgPins, .cfgSpi, .setInitDone] ++ hardResetItems s.params ++
    [.writeFrame s.params.regClockf s.params.initClockf, .writeFrame s.params.regVol s.params.initVol,
     .complete .nothing])

/-- HARD_RESET (R254). -/
def startHardReset (s : State) : State :=
  whenInitialized s fun s => s.push (hardResetItems s.params ++ [.complete .nothing])

/-- An illegal command word (R259, R277): refused whatever INIT_DONE is; `XCOUNT` is kept. -/
def illegalCommand (s : State) : State := raise .illegalCommand 0 s

def startIllegal00 (s : State) : State := illegalCommand s
def startIllegal0E (s : State) : State := illegalCommand s
def startIllegal0F (s : State) : State := illegalCommand s
def startIllegalHigh80 (_w : Byte) (s : State) : State := illegalCommand s
def startIllegalHigh40 (_w : Byte) (s : State) : State := illegalCommand s
def startIllegalHigh20 (_w : Byte) (s : State) : State := illegalCommand s
def startIllegalHigh10 (_w : Byte) (s : State) : State := illegalCommand s

end Sys2Proof.Machine
end

