-- ==== Sys2Proof/Machine/Records.lean ====
section
/-! DEFINITION. The objects met inside a command: the wire frames (spec/41_control.md R141, R146), the bytes of a
streaming bracket (spec/42_streaming.md R161, R166), the plugin records (spec/44_plugin_loader.md R201-R205) and the
application image's marker and records (spec/45_app_loader.md R221-R228). Each is the object's first engine step; a
record that is not the last puts its loader's loop after its own items. -/

namespace Sys2Proof.Machine

/-- `CtrlWrite(reg, v)` (R141). -/
def startSciW (reg : Byte) (v : Half) (s : State) : State :=
  s.gated [.sel .cmd false, .xfer 0x02 .discard, .xfer reg .discard, .xfer (hi8 v) .discard, .xfer (lo8 v) .discard,
    .sel .cmd true]

/-- `CtrlRead(reg)` (R146). -/
def startSciR (reg : Byte) (s : State) : State :=
  s.gated [.sel .cmd false, .xfer 0x03 .discard, .xfer reg .discard, .xfer 0xFF .hi, .xfer 0xFF .lo, .sel .cmd true]

/-- One byte of a streaming write: `Xfer(SrcByte(XC)); XC <- XC + 1` (R161), the received byte discarded. -/
def startSdiWriteByte (b : Byte) (s : State) : State :=
  { (transfer b s).2 with xc := s.xc + 1 }

/-- One byte of a streaming read: `Xfer(0xFF)`, whose byte `DstByte(XC)` stores next (R166). -/
def startSdiReadByte (s : State) : State :=
  (transfer 0xFF s).2.push [.storeByte (transfer 0xFF s).1]

/-- A literal record (R201, R204): the whole record must lie inside the image, then the RAM-address register is
written once, then each payload word. -/
def startPluginLit (addr : Half) (count : BitVec 15) (s : State) : State :=
  let t := { s with recAddr := addr, recHdr := count.zeroExtend 16 }
  if t.len < t.cur + (2 + count.toNat) then raise .outOfBounds t.cur t
  else
    { t with recCnt := count.zeroExtend 16 }.push
      [.writeFrame t.params.regWramAddr addr, .litData 0, .advance (2 + count.toNat),
       .pluginRecord]

/-- An RLE record (R201, R203): the RAM-address register is written once, then the value `count` times. -/
def startPluginRle (addr : Half) (count : BitVec 15) (value : Half) (s : State) : State :=
  let t := { s with recAddr := addr, recHdr := BitVec.ofBool true ++ count }
  if t.len < t.cur + 3 then raise .outOfBounds t.cur t
  else
    { t with recCnt := count.zeroExtend 16, recVal := value }.push
      [.writeFrame t.params.regWramAddr addr, .rleData 0, .advance 3, .pluginRecord]

/-- The marker of an application image (R222, R223): records start at offset 3. -/
def startAppMagic (s : State) : State := { s with cur := 3 }

/-- A data record of type `t` (R221, R225, R227, R228, R231). -/
def appDataRecord (t : Byte) (len addr : Half) (s : State) : State :=
  let u := { s with recType := t, recLen := len, recAddr := addr }
  let adv := advBytes u.params.oddAdvance len
  if u.len < u.cur + 5 + adv then raise .outOfBounds u.cur u
  else u.push [.writeFrame u.params.regWramAddr addr, .appData 0, .advance (5 + adv), .appRecord]

def startAppDataT0 (len addr : Half) (s : State) : State := appDataRecord 0 len addr s
def startAppDataT1 (len addr : Half) (s : State) : State := appDataRecord 1 len addr s
def startAppDataT2 (len addr : Half) (s : State) : State := appDataRecord 2 len addr s

/-- The execute record (R226): the activation register is written, and the command completes; the length is not
used and nothing after the record is read. -/
def startAppExec (len addr : Half) (s : State) : State :=
  let t := { s with recType := 3, recLen := len, recAddr := addr }
  if t.len < t.cur + 5 then raise .outOfBounds t.cur t
  else t.push [.writeFrame t.params.regAiaddr addr, .complete .count]

/-- A record of a type above 3 (R224): INVALID_FORMAT at the record, or a silent stop. -/
def badAppType (t : Byte) (s : State) : State :=
  let u := { s with recType := t }
  if u.params.silentType then u.push [.complete .count] else raise .invalidFormat u.cur u

def startAppTypeIllegal04 (t : Byte) (s : State) : State := badAppType t s
def startAppTypeIllegal08 (t : Byte) (s : State) : State := badAppType t s
def startAppTypeIllegal10 (t : Byte) (s : State) : State := badAppType t s
def startAppTypeIllegal20 (t : Byte) (s : State) : State := badAppType t s
def startAppTypeIllegal40 (t : Byte) (s : State) : State := badAppType t s
def startAppTypeIllegal80 (t : Byte) (s : State) : State := badAppType t s

end Sys2Proof.Machine
end

