-- ==== Sys2Proof/Machine/Engine.lean ====
section
/-! DEFINITION. The sequencer (spec/10_state.md R30, R31): what it meets next, one engine step, and a turn of several
engine steps. -/

namespace Sys2Proof.Machine

/-- The first engine step of an instruction. -/
def startOf (i : Instr) (s : State) : State :=
  match i with
  | .waitReady => startWaitReady s
  | .ctrlWrite => startCtrlWrite s
  | .ctrlRead => startCtrlRead s
  | .streamWrite => startStreamWrite s
  | .streamRead => startStreamRead s
  | .ramWrite => startRamWrite s
  | .ramRead => startRamRead s
  | .regSetBits => startRegSetBits s
  | .regClearBits => startRegClearBits s
  | .loadPlugin => startLoadPlugin s
  | .loadApp => startLoadApp s
  | .init => startInit s
  | .hardReset => startHardReset s
  | .illegal00 => startIllegal00 s
  | .illegal0E => startIllegal0E s
  | .illegal0F => startIllegal0F s
  | .illegalHigh80 w => startIllegalHigh80 w s
  | .illegalHigh40 w => startIllegalHigh40 w s
  | .illegalHigh20 w => startIllegalHigh20 w s
  | .illegalHigh10 w => startIllegalHigh10 w s
  | .sciW reg v => startSciW reg v s
  | .sciR reg => startSciR reg s
  | .sdiWriteByte b => startSdiWriteByte b s
  | .sdiReadByte => startSdiReadByte s
  | .pluginLit addr count => startPluginLit addr count s
  | .pluginRle addr count value => startPluginRle addr count value s
  | .appMagic => startAppMagic s
  | .appDataT0 len addr => startAppDataT0 len addr s
  | .appDataT1 len addr => startAppDataT1 len addr s
  | .appDataT2 len addr => startAppDataT2 len addr s
  | .appExec len addr => startAppExec len addr s
  | .appTypeIllegal04 t => startAppTypeIllegal04 t s
  | .appTypeIllegal08 t => startAppTypeIllegal08 t s
  | .appTypeIllegal10 t => startAppTypeIllegal10 t s
  | .appTypeIllegal20 t => startAppTypeIllegal20 t s
  | .appTypeIllegal40 t => startAppTypeIllegal40 t s
  | .appTypeIllegal80 t => startAppTypeIllegal80 t s

/-- What the sequencer meets. -/
inductive Met where
  /-- An encoded object that decodes. -/
  | instr (i : Instr)
  /-- An object that does not fit the image or is no marker: the error its rule names (R107, R202, R222, R225). -/
  | bad (e : ErrCode) (pos : Nat)
  /-- No object: a primitive, or an internal computation. -/
  | micro

/-- The decoder's answer, an object it rejects being the error `e` at `pos`. -/
def metOf (e : ErrCode) (pos : Nat) (o : Encoded) : Met :=
  match decode o with
  | .ok i => .instr i
  | .error _ => .bad e pos

/-- The fixed part of a plugin record has been read as far as the image goes (R99, R106): address and header, and
the value where bit 15 of the header is set and the value lies inside the image. -/
def State.pluginWhole (s : State) (got : List Half) : Bool :=
  match got with
  | _ :: header :: rest => !header.getLsbD 15 || !rest.isEmpty || decide (s.len < s.cur + 3)
  | _ => false

/-- The header of an application record has been read as far as it is needed (R103, R281): the type alone where it
is above 3 or the header does not lie inside the image, else all five bytes. -/
def State.appWhole (s : State) (got : List Byte) : Bool :=
  match got with
  | t :: rest => decide (3 < t.toNat) || decide (s.len < s.cur + 5) || decide (4 ≤ rest.length)
  | [] => false

/-- The encoded object at the head of the pseudocode, decoded where it has been read whole. -/
def meet (s : State) : Met :=
  match s.todo with
  | .command :: _ => metOf .illegalCommand 0 (.command s.lCmd)
  | .writeFrame reg v :: _ => metOf .illegalCommand 0 (.wire [0x02, reg, hi8 v, lo8 v])
  | .readFrame reg :: _ => metOf .illegalCommand 0 (.wire [0x03, reg, 0xFF, 0xFF])
  | .sendByte b :: _ => metOf .illegalCommand 0 (.streamOut b)
  | .receiveByte :: _ => metOf .illegalCommand 0 (.streamIn 0xFF)
  | .magicBytes got :: _ => if got.length < 3 then .micro else metOf .invalidFormat 0 (.magic got)
  | .pluginWords got :: _ => if s.pluginWhole got then metOf .outOfBounds s.cur (.plugin got) else .micro
  | .appBytes got :: _ => if s.appWhole got then metOf .outOfBounds s.cur (.app got) else .micro
  | _ => .micro

/-- One turn of a streaming bracket's loop (R161, R162, R166): at the count, the loop ends; else one sample of READY,
and a 0 ends the loop. -/
def streamStep (d : Dir) (s : State) : State :=
  if s.xc < s.len then
    if (sampleReady s).1 then
      (sampleReady s).2.push [match d with | .out => .fetchByte | .inward => .receiveByte]
    else (sampleReady s).2.pop
  else s.pop

/-- `SrcByte(XC)` of a streaming write (R161). -/
def fetchStep (s : State) : State := (srcByte s.xc s).2.pop.push [.sendByte (srcByte s.xc s).1]

/-- The next byte of the marker (R222). -/
def magicStep (got : List Byte) (s : State) : State :=
  (srcByte got.length s).2.pop.push [.magicBytes (got ++ [(srcByte got.length s).1])]

/-- The head of LOAD_PLUGIN's loop (R201, R202). -/
def pluginStep (s : State) : State :=
  if s.len ≤ s.cur then s.pop
  else if s.len < s.cur + 2 then raise .outOfBounds s.cur s
  else s.pop.push [.pluginWords []]

/-- The next fixed word of a plugin record (R201). -/
def pluginWordStep (got : List Half) (s : State) : State :=
  (srcWord (s.cur + got.length) s).2.pop.push [.pluginWords (got ++ [(srcWord (s.cur + got.length) s).1])]

/-- The head of LOAD_APP's loop (R221). -/
def appRecordStep (s : State) : State := if s.len ≤ s.cur then s.pop else s.pop.push [.appBytes []]

/-- The next header byte of an application record (R221). -/
def appByteStep (got : List Byte) (s : State) : State :=
  (srcByte (s.cur + got.length) s).2.pop.push [.appBytes (got ++ [(srcByte (s.cur + got.length) s).1])]

/-- `CtrlWrite(P_REG_WRAM, v)`, `XC <- XC + 1`, and the loop item `again` in place of the present one. -/
def dataWrite (v : Half) (again : Micro) (s : State) : State :=
  { s with todo := .writeFrame s.params.regWram v :: .countData :: again :: s.todo.tail }

/-- The loop of an RLE record (R203). -/
def rleStep (j : Nat) (s : State) : State :=
  if j < s.recCnt.toNat then dataWrite s.recVal (.rleData (j + 1)) s else s.pop

/-- The loop of a literal record (R204). -/
def litStep (j : Nat) (s : State) : State :=
  if j < s.recCnt.toNat then
    dataWrite (srcWord (s.cur + 2 + j) s).1 (.litData (j + 1)) (srcWord (s.cur + 2 + j) s).2
  else s.pop

/-- The loop of an application data record (R227): the high byte of the next payload word. -/
def appStep (j : Nat) (s : State) : State :=
  if j < payloadWords s.recLen then
    (srcByte (s.cur + 5 + 2 * j) s).2.pop.push [.appLow j (srcByte (s.cur + 5 + 2 * j) s).1]
  else s.pop

/-- The low byte of the payload word, and its write (R227). -/
def appLowStep (j : Nat) (h : Byte) (s : State) : State :=
  let v := cat16 h (srcByte (s.cur + 6 + 2 * j) s).1
  dataWrite v (.appData (j + 1)) { (srcByte (s.cur + 6 + 2 * j) s).2 with recVal := v }

/-- A primitive, an internal computation or the completion (R31 b, c, d). The place of an object that is met whole
never comes here, and would be left behind. -/
def microStep (m : Micro) (s : State) : State :=
  match m with
  | .gate => gateStep s
  | .polled => pollStep s
  | .sel l high => driveSelect l high s.pop
  | .xfer b d => keepByte d (transfer b s.pop).1 (transfer b s.pop).2
  | .stream d => streamStep d s
  | .fetchByte => fetchStep s
  | .storeByte r => storeDst s.xc r { s.pop with xc := s.xc + 1 }
  | .cfgPins => configurePins s.pop
  | .cfgSpi => configureSpi s.pop
  | .setInitDone => { s.pop with initDone := true, cfg := true }
  | .setReset a => driveReset a s.pop
  | .delay ms => delayFor ms s.pop
  | .modify op =>
    { s.pop with rd := s.readBack }.push [.writeFrame s.regOperand (op.apply s.readBack s.valueOperand)]
  | .rleData j => rleStep j s
  | .litData j => litStep j s
  | .appData j => appStep j s
  | .appLow j h => appLowStep j h s
  | .magicBytes got => magicStep got s
  | .pluginRecord => pluginStep s
  | .pluginWords got => pluginWordStep got s
  | .appRecord => appRecordStep s
  | .appBytes got => appByteStep got s
  | .countData => { s.pop with xc := s.xc + 1 }
  | .advance n => { s.pop with cur := s.cur + n }
  | .complete w => complete w s
  | .command | .writeFrame _ _ | .readFrame _ | .sendByte _ | .receiveByte => s.pop

/-- One engine step (R31). With no command there is nothing to do. -/
def engineStep (s : State) : State :=
  match s.todo with
  | [] => s
  | m :: _ =>
    match meet s with
    | .instr i => startOf i s.pop
    | .bad e pos => raise e pos s
    | .micro => microStep m s

/-- `n` engine steps, fewer where the command completes first. -/
def runEngine : Nat → State → State
  | 0, s => s
  | n + 1, s => if s.busy then runEngine n (engineStep s) else s

/-- What is left of a turn after its first engine step: `grant` more. -/
def continueTurn (s : State) : Host.Outcome State Fault Refusal := .next (runEngine s.grant s)

end Sys2Proof.Machine
end

