-- ==== Sys2Proof/Machine/AppLoader.lean ====
section
/-! DEFINITION. The application image loader, its marker and its records (spec/45_app_loader.md R220-R232).
A meaning is the first engine step of the object and what is left of the turn (notes/assumptions/2.md). -/

namespace Sys2Proof.Machine

/-- LOAD_APP (R221). -/
def execLoadApp (s : State) : Host.Outcome State Fault Refusal :=
  continueTurn (startLoadApp s)

/-- The marker (R222). -/
def execAppMagic (s : State) : Host.Outcome State Fault Refusal :=
  continueTurn (startAppMagic s)

/-- A data record of type 0 (R227, R231). -/
def execAppDataT0 (len addr : Half) (s : State) : Host.Outcome State Fault Refusal :=
  continueTurn (startAppDataT0 len addr s)

/-- A data record of type 1 (R227, R231). -/
def execAppDataT1 (len addr : Half) (s : State) : Host.Outcome State Fault Refusal :=
  continueTurn (startAppDataT1 len addr s)

/-- A data record of type 2 (R227, R231). -/
def execAppDataT2 (len addr : Half) (s : State) : Host.Outcome State Fault Refusal :=
  continueTurn (startAppDataT2 len addr s)

/-- The execute record (R226). -/
def execAppExec (len addr : Half) (s : State) : Host.Outcome State Fault Refusal :=
  continueTurn (startAppExec len addr s)

/-- A record of a type above 3, in this row's range (R224). -/
def execAppTypeIllegal04 (t : Byte) (s : State) : Host.Outcome State Fault Refusal :=
  continueTurn (startAppTypeIllegal04 t s)

/-- A record of a type above 3, in this row's range (R224). -/
def execAppTypeIllegal08 (t : Byte) (s : State) : Host.Outcome State Fault Refusal :=
  continueTurn (startAppTypeIllegal08 t s)

/-- A record of a type above 3, in this row's range (R224). -/
def execAppTypeIllegal10 (t : Byte) (s : State) : Host.Outcome State Fault Refusal :=
  continueTurn (startAppTypeIllegal10 t s)

/-- A record of a type above 3, in this row's range (R224). -/
def execAppTypeIllegal20 (t : Byte) (s : State) : Host.Outcome State Fault Refusal :=
  continueTurn (startAppTypeIllegal20 t s)

/-- A record of a type above 3, in this row's range (R224). -/
def execAppTypeIllegal40 (t : Byte) (s : State) : Host.Outcome State Fault Refusal :=
  continueTurn (startAppTypeIllegal40 t s)

/-- A record of a type above 3, in this row's range (R224). -/
def execAppTypeIllegal80 (t : Byte) (s : State) : Host.Outcome State Fault Refusal :=
  continueTurn (startAppTypeIllegal80 t s)

end Sys2Proof.Machine
end

