-- ==== Sys2Proof/Machine/Control.lean ====
section
/-! DEFINITION. Control transactions: the commands CTRL_WRITE and CTRL_READ and the frames they send (spec/41_control.md R141-R148).
A meaning is the first engine step of the object and what is left of the turn (notes/assumptions/2.md). -/

namespace Sys2Proof.Machine

/-- CTRL_WRITE (R142). -/
def execCtrlWrite (s : State) : Host.Outcome State Fault Refusal :=
  continueTurn (startCtrlWrite s)

/-- CTRL_READ (R147). -/
def execCtrlRead (s : State) : Host.Outcome State Fault Refusal :=
  continueTurn (startCtrlRead s)

/-- The control write frame with its gate (R141). -/
def execSciW (reg : Byte) (v : Half) (s : State) : Host.Outcome State Fault Refusal :=
  continueTurn (startSciW reg v s)

/-- The control read frame with its gate (R146). -/
def execSciR (reg : Byte) (s : State) : Host.Outcome State Fault Refusal :=
  continueTurn (startSciR reg s)

end Sys2Proof.Machine
end

