-- ==== Sys2Proof/Machine/FlowControl.lean ====
section
/-! DEFINITION. The Flow-Control Gate run alone (spec/40_flow_control.md R133).
A meaning is the first engine step of the object and what is left of the turn (notes/assumptions/2.md). -/

namespace Sys2Proof.Machine

/-- WAIT_READY (R133). -/
def execWaitReady (s : State) : Host.Outcome State Fault Refusal :=
  continueTurn (startWaitReady s)

end Sys2Proof.Machine
end

