-- ==== Sys2Proof/Machine/LineControl.lean ====
section
/-! DEFINITION. INIT, HARD_RESET and the illegal command words (spec/46_line_control.md R250-R260).
A meaning is the first engine step of the object and what is left of the turn (notes/assumptions/2.md). -/

namespace Sys2Proof.Machine

/-- INIT (R251, R255). -/
def execInit (s : State) : Host.Outcome State Fault Refusal :=
  continueTurn (startInit s)

/-- HARD_RESET (R254). -/
def execHardReset (s : State) : Host.Outcome State Fault Refusal :=
  continueTurn (startHardReset s)

/-- The word 0x00 (R259). -/
def execIllegal00 (s : State) : Host.Outcome State Fault Refusal :=
  continueTurn (startIllegal00 s)

/-- The word 0x0E (R259). -/
def execIllegal0E (s : State) : Host.Outcome State Fault Refusal :=
  continueTurn (startIllegal0E s)

/-- The word 0x0F (R259). -/
def execIllegal0F (s : State) : Host.Outcome State Fault Refusal :=
  continueTurn (startIllegal0F s)

/-- A word of this row's range, bits [7:4] not 0 (R92, R259). -/
def execIllegalHigh80 (w : Byte) (s : State) : Host.Outcome State Fault Refusal :=
  continueTurn (startIllegalHigh80 w s)

/-- A word of this row's range, bits [7:4] not 0 (R92, R259). -/
def execIllegalHigh40 (w : Byte) (s : State) : Host.Outcome State Fault Refusal :=
  continueTurn (startIllegalHigh40 w s)

/-- A word of this row's range, bits [7:4] not 0 (R92, R259). -/
def execIllegalHigh20 (w : Byte) (s : State) : Host.Outcome State Fault Refusal :=
  continueTurn (startIllegalHigh20 w s)

/-- A word of this row's range, bits [7:4] not 0 (R92, R259). -/
def execIllegalHigh10 (w : Byte) (s : State) : Host.Outcome State Fault Refusal :=
  continueTurn (startIllegalHigh10 w s)

end Sys2Proof.Machine
end

