-- ==== Sys2Proof/Machine/PluginLoader.lean ====
section
/-! DEFINITION. The plugin image loader and its records (spec/44_plugin_loader.md R200-R210).
A meaning is the first engine step of the object and what is left of the turn (notes/assumptions/2.md). -/

namespace Sys2Proof.Machine

/-- LOAD_PLUGIN (R201). -/
def execLoadPlugin (s : State) : Host.Outcome State Fault Refusal :=
  continueTurn (startLoadPlugin s)

/-- A literal record (R204). -/
def execPluginLit (addr : Half) (count : BitVec 15) (s : State) : Host.Outcome State Fault Refusal :=
  continueTurn (startPluginLit addr count s)

/-- An RLE record (R203). -/
def execPluginRle (addr : Half) (count : BitVec 15) (value : Half) (s : State) : Host.Outcome State Fault Refusal :=
  continueTurn (startPluginRle addr count value s)

end Sys2Proof.Machine
end

