-- ==== Sys2Proof/Machine/RegisterMap.lean ====
section
/-! DEFINITION. RAM window and read-modify-write (spec/43_register_map.md R180-R191).
A meaning is the first engine step of the object and what is left of the turn (notes/assumptions/2.md). -/

namespace Sys2Proof.Machine

/-- RAM_WRITE (R181). -/
def execRamWrite (s : State) : Host.Outcome State Fault Refusal :=
  continueTurn (startRamWrite s)

/-- RAM_READ (R184). -/
def execRamRead (s : State) : Host.Outcome State Fault Refusal :=
  continueTurn (startRamRead s)

/-- REG_SET_BITS (R187). -/
def execRegSetBits (s : State) : Host.Outcome State Fault Refusal :=
  continueTurn (startRegSetBits s)

/-- REG_CLEAR_BITS (R190). -/
def execRegClearBits (s : State) : Host.Outcome State Fault Refusal :=
  continueTurn (startRegClearBits s)

end Sys2Proof.Machine
end

