-- ==== Sys2Proof/Machine/Streaming.lean ====
section
/-! DEFINITION. Streaming transactions and the bytes of their bracket (spec/42_streaming.md R160-R168).
A meaning is the first engine step of the object and what is left of the turn (notes/assumptions/2.md). -/

namespace Sys2Proof.Machine

/-- STREAM_WRITE (R161). -/
def execStreamWrite (s : State) : Host.Outcome State Fault Refusal :=
  continueTurn (startStreamWrite s)

/-- STREAM_READ (R166). -/
def execStreamRead (s : State) : Host.Outcome State Fault Refusal :=
  continueTurn (startStreamRead s)

/-- One byte of a streaming write, its READY sample already taken (R161, R162). -/
def execSdiWriteByte (b : Byte) (s : State) : Host.Outcome State Fault Refusal :=
  continueTurn (startSdiWriteByte b s)

/-- One byte of a streaming read, its READY sample already taken (R162, R166). -/
def execSdiReadByte (s : State) : Host.Outcome State Fault Refusal :=
  continueTurn (startSdiReadByte s)

end Sys2Proof.Machine
end

