-- ==== Sys2Proof/Machine/Dispatch.lean ====
section
/-! DEFINITION. One arm for each constructor of `Instr`. -/

namespace Sys2Proof.Machine

def exec (i : Instr) (s : State) : Host.Outcome State Fault Refusal :=
  match i with
  | .waitReady => Sys2Proof.Machine.execWaitReady s
  | .ctrlWrite => Sys2Proof.Machine.execCtrlWrite s
  | .ctrlRead => Sys2Proof.Machine.execCtrlRead s
  | .streamWrite => Sys2Proof.Machine.execStreamWrite s
  | .streamRead => Sys2Proof.Machine.execStreamRead s
  | .ramWrite => Sys2Proof.Machine.execRamWrite s
  | .ramRead => Sys2Proof.Machine.execRamRead s
  | .regSetBits => Sys2Proof.Machine.execRegSetBits s
  | .regClearBits => Sys2Proof.Machine.execRegClearBits s
  | .loadPlugin => Sys2Proof.Machine.execLoadPlugin s
  | .loadApp => Sys2Proof.Machine.execLoadApp s
  | .init => Sys2Proof.Machine.execInit s
  | .hardReset => Sys2Proof.Machine.execHardReset s
  | .illegal00 => Sys2Proof.Machine.execIllegal00 s
  | .illegal0E => Sys2Proof.Machine.execIllegal0E s
  | .illegal0F => Sys2Proof.Machine.execIllegal0F s
  | .illegalHigh80 w => Sys2Proof.Machine.execIllegalHigh80 w s
  | .illegalHigh40 w => Sys2Proof.Machine.execIllegalHigh40 w s
  | .illegalHigh20 w => Sys2Proof.Machine.execIllegalHigh20 w s
  | .illegalHigh10 w => Sys2Proof.Machine.execIllegalHigh10 w s
  | .sciW reg v => Sys2Proof.Machine.execSciW reg v s
  | .sciR reg => Sys2Proof.Machine.execSciR reg s
  | .sdiWriteByte b => Sys2Proof.Machine.execSdiWriteByte b s
  | .sdiReadByte => Sys2Proof.Machine.execSdiReadByte s
  | .pluginLit addr count => Sys2Proof.Machine.execPluginLit addr count s
  | .pluginRle addr count value => Sys2Proof.Machine.execPluginRle addr count value s
  | .appMagic => Sys2Proof.Machine.execAppMagic s
  | .appDataT0 len addr => Sys2Proof.Machine.execAppDataT0 len addr s
  | .appDataT1 len addr => Sys2Proof.Machine.execAppDataT1 len addr s
  | .appDataT2 len addr => Sys2Proof.Machine.execAppDataT2 len addr s
  | .appExec len addr => Sys2Proof.Machine.execAppExec len addr s
  | .appTypeIllegal04 t => Sys2Proof.Machine.execAppTypeIllegal04 t s
  | .appTypeIllegal08 t => Sys2Proof.Machine.execAppTypeIllegal08 t s
  | .appTypeIllegal10 t => Sys2Proof.Machine.execAppTypeIllegal10 t s
  | .appTypeIllegal20 t => Sys2Proof.Machine.execAppTypeIllegal20 t s
  | .appTypeIllegal40 t => Sys2Proof.Machine.execAppTypeIllegal40 t s
  | .appTypeIllegal80 t => Sys2Proof.Machine.execAppTypeIllegal80 t s

end Sys2Proof.Machine
end

