-- ==== Sys2Proof/Machine/Fetch.lean ====
section
/-! DEFINITION. Where the object of a table word is placed so that the next engine turn meets it
(spec/30_encoding.md R90; notes/assumptions/9.md, 10.md). -/

namespace Sys2Proof.Machine

/-- A block that has run its INIT: the lines and the channel are configured and RESET is released (R251). -/
def State.configured (s : State) : State :=
  { s with initDone := true, cfg := true, csCmd := .high, csData := .high, resetLine := .driven .deasserted,
           spiOn := true }

/-- A `CMD` word stands accepted; a frame, a plugin record or a marker stands where the sequencer of a configured
block meets it next, inside a command that holds such an object. -/
def placeWord (nbits w : Nat) (t : State) : State :=
  match nbits with
  | 8 => accept (BitVec.ofNat 8 w) t
  | 16 =>
    { t.configured with
      lCmd := 0x0A
      lLen := BitVec.ofNat 32 (3 + w % 2 ^ 15)
      cur := 0
      srcw := writeBuffer (writeBuffer (writeBuffer t.srcw 0 0) 1 (BitVec.ofNat 16 w)) 2 0
      srcwOld := []
      todo := [.pluginWords [0, BitVec.ofNat 16 w, 0], .complete .count] }
  | 24 =>
    { t.configured with
      lCmd := 0x0B
      lLen := 3
      src := writeBuffer (writeBuffer (writeBuffer t.src 0 (markerByte (BitVec.ofNat 24 w) 0)) 1
        (markerByte (BitVec.ofNat 24 w) 1)) 2 (markerByte (BitVec.ofNat 24 w) 2)
      srcOld := []
      todo := [.magicBytes (markerBytes (BitVec.ofNat 24 w)), .appRecord, .complete .count] }
  | 32 =>
    match decodeWire (frameBytes (BitVec.ofNat 32 w)) with
    | .ok (.sciW reg v) => { t.configured with lCmd := 0x02, todo := [.writeFrame reg v, .complete .nothing] }
    | .ok (.sciR reg) => { t.configured with lCmd := 0x03, todo := [.readFrame reg, .complete .readValue] }
    | _ => t
  | _ => t

end Sys2Proof.Machine
end

