-- ==== Sys2Proof/Machine/Step.lean ====
section
/-! DEFINITION. The step (spec/10_state.md R15, R31): the agenda says who acts; where the sequencer meets an encoded
object, the object is decoded and executed. -/

namespace Sys2Proof.Machine

/-- One turn of the engine: at most `grant + 1` engine steps. With no command it does nothing (R300). -/
def engineTurn (s : State) : Host.Outcome State Fault Refusal :=
  match meet s with
  | .instr i => exec i s.pop
  | .bad e pos => .next (raise e pos s)
  | .micro => continueTurn (engineStep s)

/-- One step of the machine. -/
def step (s : State) : Host.Outcome State Fault Refusal :=
  match s.agenda with
  | [] => engineTurn s
  | .engine g :: rest => engineTurn { s with agenda := rest, grant := g }
  | .host a :: rest => hostAccess a { s with agenda := rest }
  | .waitDone :: rest =>
    if s.busy then engineTurn (s.logRead (s.hostRegister 1))
    else .next { (s.logRead (s.hostRegister 1)) with agenda := rest }

/-- The state in which the very next step runs the object of a table word: the engine's turn, with the object placed
where the sequencer meets it. -/
def State.withFetchWord (s : State) (nbits w : Nat) : State :=
  placeWord nbits w { s with agenda := .engine s.grant :: s.agenda }

end Sys2Proof.Machine
end

