-- ==== Sys2Proof/Machine/Assembler.lean ====
section
/-! DEFINITION. The text form for host command sequences (spec/30_encoding.md R108, R109): each line as the host
turns it expands to. -/

namespace Sys2Proof.Machine

/-- A line (R108), a pseudo-instruction or a directive (R109). -/
inductive AsmLine where
  | waitRdy
  | cw (reg : Byte) (val : Half)
  | cr (reg : Byte)
  | sw (len : Long)
  | sr (len : Long)
  | rw (addr val : Half)
  | rr (addr : Half)
  | setb (reg : Byte) (mask : Half)
  | clrb (reg : Byte) (mask : Half)
  | ldp (len : Long)
  | lda (len : Long)
  | init
  | hrst
  | waitDone
  | modeSet (mask : Half)
  | modeClr (mask : Half)
  | srcb (bytes : List Byte)
  | srcwords (words : List Half)
deriving DecidableEq, Repr

/-- `HW n, v`. -/
def hw (n : Nat) (v : Long) : Turn := .host (.write n v)

/-- The expansion of a line (R108, R109). `HW 0` starts the command, which runs in the engine's turns. -/
def assemble (p : Params) (l : AsmLine) : List Turn :=
  match l with
  | .waitRdy => [hw 0 0x01]
  | .cw reg val => [hw 2 (reg.zeroExtend 32), hw 3 (val.zeroExtend 32), hw 0 0x02]
  | .cr reg => [hw 2 (reg.zeroExtend 32), hw 0 0x03]
  | .sw len => [hw 5 len, hw 0 0x04]
  | .sr len => [hw 5 len, hw 0 0x05]
  | .rw addr val => [hw 3 (addr.zeroExtend 32), hw 4 (val.zeroExtend 32), hw 0 0x06]
  | .rr addr => [hw 3 (addr.zeroExtend 32), hw 0 0x07]
  | .setb reg mask => [hw 2 (reg.zeroExtend 32), hw 3 (mask.zeroExtend 32), hw 0 0x08]
  | .clrb reg mask => [hw 2 (reg.zeroExtend 32), hw 3 (mask.zeroExtend 32), hw 0 0x09]
  | .ldp len => [hw 5 len, hw 0 0x0A]
  | .lda len => [hw 5 len, hw 0 0x0B]
  | .init => [hw 0 0x0C]
  | .hrst => [hw 0 0x0D]
  | .waitDone => [.waitDone]
  | .modeSet mask => [hw 2 (p.regMode.zeroExtend 32), hw 3 (mask.zeroExtend 32), hw 0 0x08]
  | .modeClr mask => [hw 2 (p.regMode.zeroExtend 32), hw 3 (mask.zeroExtend 32), hw 0 0x09]
  | .srcb bytes => (List.range bytes.length).map fun i => .host (.writeSrc i (bytes.getD i 0))
  | .srcwords words => (List.range words.length).map fun i => .host (.writeSrcw i (words.getD i 0))

end Sys2Proof.Machine
end

