-- ==== Sys2Proof/Safety.lean ====
section
/-! DEFINITION. The terms claims are stated in: the bus protocol as an automaton over the trace (spec/10_state.md
R43-R45) and the invariants of the machine; then the effect of a gate, a frame, a bracket and an image, each written
out as a state or a list of frames, from the traces the rules give. -/

namespace Sys2Proof.Machine

/-! ### The bus protocol -/

/-- Where a trace stands. -/
inductive BusPhase where
  /-- No bracket is open, and the last event is no `RDY(1)`. -/
  | closed
  /-- No bracket is open, and the last event is `RDY(1)`. -/
  | ready
  /-- Inside a `CS_CMD` bracket, after `n` transfers. -/
  | inCmd (n : Nat)
  /-- Inside a `CS_DATA` bracket, and the last event is no `RDY(1)` of this bracket. -/
  | inData
  /-- Inside a `CS_DATA` bracket, directly after a `RDY(1)`. -/
  | dataReady
deriving DecidableEq, Repr

/-- No bracket is open. -/
def BusPhase.idle : BusPhase → Bool
  | .closed | .ready => true
  | _ => false

/-- The events R43, R44 and R45 allow next: a bracket opens only directly after `RDY(1)` and none is open (R43, R44); a
`CS_CMD` bracket holds exactly four transfers, the first sending 0x02 or 0x03, and a `CS_DATA` bracket transfers only
directly after `RDY(1)` (R45). -/
def BusPhase.after : BusPhase → BusEvent → Option BusPhase
  | .closed, .rdy v => some (if v then .ready else .closed)
  | .ready, .rdy v => some (if v then .ready else .closed)
  | .closed, .cfgPins | .ready, .cfgPins | .closed, .cfgSpi | .ready, .cfgSpi => some .closed
  | .closed, .rst _ | .ready, .rst _ | .closed, .dly _ | .ready, .dly _ => some .closed
  | .ready, .sel .cmd false => some (.inCmd 0)
  | .ready, .sel .data false => some .inData
  | .inCmd n, .xfer o _ =>
    if n < 4 ∧ (n = 0 → o = 0x02#8 ∨ o = 0x03#8) then some (.inCmd (n + 1)) else none
  | .inCmd n, .sel .cmd true => if n = 4 then some .closed else none
  | .inData, .rdy v => some (if v then .dataReady else .inData)
  | .dataReady, .xfer _ _ => some .inData
  | .inData, .sel .data true => some .closed
  | _, _ => none

/-- Where a trace leads, `none` where it breaks R43, R44 or R45. -/
def busPhase (t : List BusEvent) : Option BusPhase := t.foldl (fun b e => b.bind fun p => p.after e) (some .closed)

/-- The pseudocode still to be run keeps the protocol from here. -/
def BusPhase.allows : BusPhase → List Micro → Prop
  | b, [] => b.idle = true
  | b, .complete _ :: _ => b.idle = true
  | b, .gate :: r => b.idle = true ∧ BusPhase.ready.allows r
  | b, .sel .cmd false :: r => b = .ready ∧ (BusPhase.inCmd 0).allows r
  | b, .sel .cmd true :: r => b = .inCmd 4 ∧ BusPhase.closed.allows r
  | b, .sel .data false :: r => b = .ready ∧ BusPhase.inData.allows r
  | b, .sel .data true :: r => b = .inData ∧ BusPhase.closed.allows r
  | b, .xfer o _ :: r =>
    ∃ n, b = .inCmd n ∧ n < 4 ∧ (n = 0 → o = 0x02#8 ∨ o = 0x03#8) ∧ (BusPhase.inCmd (n + 1)).allows r
  | b, .stream _ :: r => b = .inData ∧ BusPhase.inData.allows r
  | b, .fetchByte :: r => b = .dataReady ∧ BusPhase.inData.allows r
  | b, .sendByte _ :: r => b = .dataReady ∧ BusPhase.inData.allows r
  | b, .receiveByte :: r => b = .dataReady ∧ BusPhase.inData.allows r
  | b, .storeByte _ :: r => b = .inData ∧ BusPhase.inData.allows r
  | b, _ :: r => b.idle = true ∧ BusPhase.closed.allows r

/-- The select lines agree with the trace: a line is low exactly while its bracket is open. -/
def linesAgree (b : BusPhase) (s : State) : Prop :=
  (s.csCmd = .low ↔ ∃ n, b = .inCmd n) ∧ (s.csData = .low ↔ b = .inData ∨ b = .dataReady)

/-- The bus invariant: the trace keeps R43, R44 and R45, what is still to be run will keep them, and the lines agree. -/
def State.busInv (s : State) : Prop := ∃ b, busPhase s.trace = some b ∧ b.allows s.todo ∧ linesAgree b s

/-! ### Other invariants -/

/-- The memories keep their canonical form (notes/assumptions/4.md). -/
def State.memInv (s : State) : Prop := BufferWf s.src ∧ BufferWf s.srcw ∧ BufferWf s.dst ∧ BufferWf s.dstIn

/-- Before INIT has configured the lines (R34, R46, R250, R302): no line is driven and the trace is empty, unless INIT
itself is at work, whose first events then make up the trace. -/
def State.preInitInv (s : State) : Prop :=
  s.initDone = false →
    (s.trace = [] ∧ s.csCmd = .z ∧ s.csData = .z ∧ s.resetLine = .z ∧ s.spiOn = false ∧ s.cfg = false ∧
      (s.todo = [] ∨ s.todo = [.command] ∨ ∃ r, s.todo = .cfgPins :: .cfgSpi :: .setInitDone :: r)) ∨
    (s.trace = [.cfgPins] ∧ s.cfg = false ∧ ∃ r, s.todo = .cfgSpi :: .setInitDone :: r) ∨
    (s.trace = [.cfgPins, .cfgSpi] ∧ s.cfg = false ∧ ∃ r, s.todo = .setInitDone :: r)

/-! ### READY answers -/

/-- The chip's next READY answers: `k` low ones, then a high one, and no timeout before it (R131). -/
def State.gateOpens (s : State) (k : Nat) : Prop :=
  (∀ j, j < k → s.readyAt j = false) ∧ s.readyAt k = true ∧ ∀ n, s.params.readyTimeout = some n → k < n

/-- The chip's next `n` READY answers are all high. -/
def State.readyFor (s : State) (n : Nat) : Prop := ∀ j, j < n → s.readyAt j = true

/-- The chip's next `n` READY answers are all low. -/
def State.notReadyFor (s : State) (n : Nat) : Prop := ∀ j, j < n → s.readyAt j = false

/-- No element of the three memories reads otherwise (R29). -/
def State.sameMemory (s t : State) : Prop :=
  (∀ j, t.srcAt j = s.srcAt j) ∧ (∀ j, t.srcwAt j = s.srcwAt j) ∧ ∀ j, t.dstAt j = s.dstAt j

/-- What no control transaction and no loader writes: the parameters, the host's registers, the latched operands, the reset line,
the channel, `CS_DATA`, the three memories, the agenda and the host's record. -/
def State.sameAround (s t : State) : Prop :=
  t.params = s.params ∧ t.argReg = s.argReg ∧ t.argA = s.argA ∧ t.argB = s.argB ∧ t.bufLen = s.bufLen ∧
  t.initDone = s.initDone ∧ t.ovr = s.ovr ∧ t.cfg = s.cfg ∧ t.lCmd = s.lCmd ∧ t.lReg = s.lReg ∧ t.lA = s.lA ∧
  t.lB = s.lB ∧ t.lLen = s.lLen ∧ t.resetLine = s.resetLine ∧ t.spiOn = s.spiOn ∧ t.csData = s.csData ∧
  s.sameMemory t ∧ t.agenda = s.agenda ∧ t.reads = s.reads

/-- What no step without a bus event writes: the levels of the lines and the last READY sample. -/
def State.sameLines (s t : State) : Prop :=
  t.csCmd = s.csCmd ∧ t.csData = s.csData ∧ t.resetLine = s.resetLine ∧ t.lastRdy = s.lastRdy

/-- No element of the sources has been written by the host while the command runs (R306). -/
def State.sourcesStable (s : State) : Prop := s.srcOld = [] ∧ s.srcwOld = []

/-! ### Effects, written out -/

/-- `k` low samples of READY (R131). -/
def State.polledLow (s : State) (k : Nat) : State :=
  { s with
    rdyIn := s.rdyIn.drop k
    rdyCount := s.rdyCount + k
    lastRdy := if k = 0 then s.lastRdy else false
    polls := k
    trace := s.trace ++ List.replicate k (.rdy false) }

/-- A gate that opens after `k` low samples: `RDY(0)* RDY(1)` (R131). -/
def State.gatePassed (s : State) (k : Nat) : State :=
  { s with
    rdyIn := s.rdyIn.drop (k + 1)
    rdyCount := s.rdyCount + (k + 1)
    lastRdy := true
    polls := k
    trace := s.trace ++ (List.replicate k (.rdy false) ++ [.rdy true]) }

/-- After `CtrlWrite(reg, v)`, its gate opening after `k` low samples: the trace of R141. -/
def State.wroteFrame (s : State) (k : Nat) (reg : Byte) (v : Half) : State :=
  { s with
    rdyIn := s.rdyIn.drop (k + 1)
    rdyCount := s.rdyCount + (k + 1)
    lastRdy := true
    polls := k
    misoIn := s.misoIn.drop 4
    misoCount := s.misoCount + 4
    csCmd := .high
    trace := s.trace ++ (List.replicate k (.rdy false) ++
      [.rdy true, .sel .cmd false, .xfer 0x02 (s.misoAt 0), .xfer reg (s.misoAt 1), .xfer (hi8 v) (s.misoAt 2),
       .xfer (lo8 v) (s.misoAt 3), .sel .cmd true]) }

/-- After `CtrlRead(reg)`, its gate opening after `k` low samples: the trace of R146, with HI and LO received. -/
def State.didReadFrame (s : State) (k : Nat) (reg : Byte) : State :=
  { s with
    rdyIn := s.rdyIn.drop (k + 1)
    rdyCount := s.rdyCount + (k + 1)
    lastRdy := true
    polls := k
    misoIn := s.misoIn.drop 4
    misoCount := s.misoCount + 4
    csCmd := .high
    hi := s.misoAt 2
    lo := s.misoAt 3
    trace := s.trace ++ (List.replicate k (.rdy false) ++
      [.rdy true, .sel .cmd false, .xfer 0x03 (s.misoAt 0), .xfer reg (s.misoAt 1), .xfer 0xFF (s.misoAt 2),
       .xfer 0xFF (s.misoAt 3), .sel .cmd true]) }

/-- The value the next control read frame returns: the chip's third and fourth bytes, high byte first (R95). -/
def State.nextRead (s : State) : Half := cat16 (s.misoAt 2) (s.misoAt 3)

/-- A control write with the number of low samples its gate takes before it opens. -/
abbrev GatedFrame := Nat × Byte × Half

/-- After a list of control writes (R141). -/
def State.wroteFrames : State → List GatedFrame → State
  | s, [] => s
  | s, (k, reg, v) :: fs => (s.wroteFrame k reg v).wroteFrames fs

/-- The gate of each of a list of control writes opens after its number of low samples. -/
def State.framesOpen : State → List GatedFrame → Prop
  | _, [] => True
  | s, (k, reg, v) :: fs => s.gateOpens k ∧ (s.wroteFrame k reg v).framesOpen fs

/-- The low samples in a list of control writes. -/
def lowSamples (fs : List GatedFrame) : Nat := (fs.map fun f => f.1).sum

/-- The control writes themselves, without their gates. -/
def plainFrames (fs : List GatedFrame) : List (Byte × Half) := fs.map fun f => f.2

/-- The READY answers a bracket of `m` bytes uses after its gate, `count` being the bytes asked for: `m` high ones, then,
if the bracket stops early, a low one (R162). -/
def State.bracketOf (s : State) (k m count : Nat) : Prop :=
  m ≤ count ∧ (∀ j, j < m → s.readyAt (k + 1 + j) = true) ∧ (m < count → s.readyAt (k + 1 + m) = false)

/-- The events of a bracket of `m` bytes, byte `j` sent being `out j` (R160, R161, R166). -/
def bracketEvents (m count : Nat) (out inp : Nat → Byte) : List BusEvent :=
  [.sel .data false] ++ (List.range m).flatMap (fun j => [.rdy true, .xfer (out j) (inp j)]) ++
    (if m < count then [.rdy false] else []) ++ [.sel .data true]

/-- After a streaming bracket of `m` bytes, its gate opening after `k` low samples (R161, R166). -/
def State.streamed (s : State) (k m : Nat) (out : Nat → Byte) : State :=
  { s with
    rdyIn := s.rdyIn.drop (k + 1 + m + (if m < s.len then 1 else 0))
    rdyCount := s.rdyCount + (k + 1 + m + (if m < s.len then 1 else 0))
    lastRdy := decide (s.len ≤ m)
    polls := k
    misoIn := s.misoIn.drop m
    misoCount := s.misoCount + m
    csData := .high
    xc := m
    trace := s.trace ++ (List.replicate k (.rdy false) ++ [.rdy true] ++ bracketEvents m s.len out s.misoAt) }

/-- A memory after its first `m` elements were written in order with the bytes `f 0, f 1, ...` (R166). -/
def storeBytes (d : List Host.Cell) (m : Nat) (f : Nat → Byte) : List Host.Cell :=
  (List.range m).foldl (fun d j => writeBuffer d j (f j)) d

/-- After `HardReset()` (R252). -/
def State.wasHardReset (s : State) : State :=
  { s with
    resetLine := .driven .deasserted
    trace := s.trace ++
      [.rst .asserted, .dly s.params.resetAssertMs, .rst .deasserted, .dly s.params.resetRecoverMs] }

/-- After the first part of INIT: lines, channel, INIT_DONE and the reset pulse (R251). -/
def State.initialised (s : State) : State :=
  { s with
    csCmd := .high
    csData := .high
    resetLine := .driven .deasserted
    spiOn := true
    initDone := true
    cfg := true
    trace := s.trace ++
      [.cfgPins, .cfgSpi, .rst .asserted, .dly s.params.resetAssertMs, .rst .deasserted,
       .dly s.params.resetRecoverMs] }

/-! ### Classes of command words -/

/-- The illegal command words (R92). -/
def illegalCommands (i : Sys2Proof.Instr) : Prop :=
  i = .illegal00 ∨ i = .illegal0E ∨ i = .illegal0F ∨
  ∃ w, i = .illegalHigh80 w ∨ i = .illegalHigh40 w ∨ i = .illegalHigh20 w ∨ i = .illegalHigh10 w

/-- The legal commands other than INIT (R257). -/
def legalCommandsButInit : List Sys2Proof.Instr :=
  [.waitReady, .ctrlWrite, .ctrlRead, .streamWrite, .streamRead, .ramWrite, .ramRead, .regSetBits, .regClearBits,
   .loadPlugin, .loadApp, .hardReset]

/-- The records of a type above 3 (R104, R224). -/
def badTypeRecords (b : Byte) : List Sys2Proof.Instr :=
  [.appTypeIllegal04 b, .appTypeIllegal08 b, .appTypeIllegal10 b, .appTypeIllegal20 b, .appTypeIllegal40 b,
   .appTypeIllegal80 b]

/-- The data record of type 0, 1 or 2 (R104). -/
def dataRecordOf (t : Fin 3) (len addr : Half) : Sys2Proof.Instr :=
  match t with
  | 0 => .appDataT0 len addr
  | 1 => .appDataT1 len addr
  | 2 => .appDataT2 len addr

/-! ### Images -/

/-- A plugin record as data (R99). -/
inductive PluginRecord where
  | lit (addr : Half) (words : List Half)
  | rle (addr : Half) (count : BitVec 15) (value : Half)

/-- A literal record's word count fits its header (R100). -/
def PluginRecord.fits : PluginRecord → Prop
  | .lit _ words => words.length < 2 ^ 15
  | .rle _ _ _ => True

/-- The words of a record (R99). -/
def PluginRecord.words : PluginRecord → List Half
  | .lit addr ws => addr :: BitVec.ofNat 16 ws.length :: ws
  | .rle addr count value => [addr, BitVec.ofNat 16 (2 ^ 15 + count.toNat), value]

/-- The control writes of a record (R203, R204). -/
def PluginRecord.frames (p : Params) : PluginRecord → List (Byte × Half)
  | .lit addr ws => (p.regWramAddr, addr) :: ws.map fun w => (p.regWram, w)
  | .rle addr count value => (p.regWramAddr, addr) :: List.replicate count.toNat (p.regWram, value)

/-- The RAM-data writes of a record. -/
def PluginRecord.dataCount : PluginRecord → Nat
  | .lit _ ws => ws.length
  | .rle _ count _ => count.toNat

/-- An application data record as data (R103): its type, one of 0, 1, 2, its address and its payload. -/
structure AppRecord where
  type : Fin 3
  addr : Half
  payload : List Byte

/-- The bytes of a data record (R103). -/
def AppRecord.bytes (r : AppRecord) : List Byte :=
  [BitVec.ofNat 8 r.type.val, hi8 (BitVec.ofNat 16 r.payload.length), lo8 (BitVec.ofNat 16 r.payload.length),
   hi8 r.addr, lo8 r.addr] ++ r.payload

/-- The big-endian words of a payload, an odd last byte dropped (R105, R228). -/
def payloadWordsOf : List Byte → List Half
  | h :: l :: rest => cat16 h l :: payloadWordsOf rest
  | _ => []

/-- The control writes of a data record (R227). -/
def AppRecord.frames (p : Params) (r : AppRecord) : List (Byte × Half) :=
  (p.regWramAddr, r.addr) :: (payloadWordsOf r.payload).map fun w => (p.regWram, w)

/-- The bytes of an application image: marker, data records and, where there is one, the execute record with its entry
address and a length field that is not used (R102, R103, R226). -/
def appImage (rs : List AppRecord) (entry : Option (Half × Half)) : List Byte :=
  [0x50, 0x26, 0x48] ++ rs.flatMap AppRecord.bytes ++
    (match entry with
     | some (len, addr) => [0x03, hi8 len, lo8 len, hi8 addr, lo8 addr]
     | none => [])

/-- The activation write of an image, where it has an execute record (R226, R229). -/
def activation (p : Params) (entry : Option (Half × Half)) : List (Byte × Half) :=
  match entry with
  | some (_, addr) => [(p.regAiaddr, addr)]
  | none => []

end Sys2Proof.Machine
end

