-- ==== Sys2Proof/Certificates/Slice0/Obligations.lean ====
section
/-! DEFINITION. The statements. A statement about `exec` is about the state after the object's place has been left
behind, as `step` gives it; a grant large enough lets one turn hold the whole object (notes/assumptions/2.md). -/

open Sys2Proof Sys2Proof.Machine

/-! ### Encodings -/

/-- R90-R104: decoding the encoding of any well-formed instruction gives that instruction. -/
def Obligations.DecodeEncodeRoundTrip : Prop :=
  ∀ i : Instr, i.wellFormed = true → decode (encode i) = .ok i

/-- R90-R106: what the decoder reads is well-formed, and its encoding is what was read, or what the words or bytes read
begin with. -/
def Obligations.DecodedObjectsReencode : Prop :=
  (∀ w : Byte, (decodeCommand w).wellFormed = true ∧ encode (decodeCommand w) = .command w) ∧
  (∀ (bytes : List Byte) (i : Instr), decodeWire bytes = .ok i → i.wellFormed = true ∧ encode i = .wire bytes) ∧
  (∀ (words : List Half) (i : Instr), decodePlugin words = .ok i →
    i.wellFormed = true ∧ ∃ e rest, encode i = .plugin e ∧ words = e ++ rest) ∧
  (∀ (bytes : List Byte) (i : Instr), decodeMagic bytes = .ok i →
    i.wellFormed = true ∧ ∃ e rest, encode i = .magic e ∧ bytes = e ++ rest) ∧
  (∀ (bytes : List Byte) (i : Instr), decodeApp bytes = .ok i →
    i.wellFormed = true ∧ ∃ e rest, encode i = .app e ∧ bytes = e ++ rest)

/-- Words written out from the encoding tables decode to what they stand for (R91, R94, R95, R99, R102, R103). -/
def Obligations.WordsDecodeAsTabled : Prop :=
  decode (.command 0x0C) = .ok .init ∧ decode (.command 0x12) = .ok (.illegalHigh10 0x12) ∧
  decode (.wire [0x02, 0x0B, 0x20, 0x21]) = .ok (.sciW 0x0B 0x2021) ∧
  decode (.wire [0x03, 0x0B, 0xFF, 0xFF]) = .ok (.sciR 0x0B) ∧
  decode (.plugin [0x0020, 0x8003, 0x5555]) = .ok (.pluginRle 0x0020 3 0x5555) ∧
  decode (.plugin [0x0010, 0x0002]) = .ok (.pluginLit 0x0010 2) ∧
  decode (.magic [0x50, 0x26, 0x48]) = .ok .appMagic ∧
  decode (.app [0x03, 0x00, 0x00, 0x12, 0x34]) = .ok (.appExec 0x0000 0x1234)

/-- R67: `MOSI` carries the byte's bits most significant first; the bits received, put together in order, the first as
bit 7, are the byte; and on the wires, `SCK` is low before the transfer, in the first half of every period and after it,
and both sides sample on its rising edges: what the block sends is sampled there, and the byte it assembles is made of
the bits that stand on `MISO` there, whatever `MISO` carries elsewhere. -/
def Obligations.TransferBitsAreMsbFirst : Prop :=
  (∀ b : Byte, misoByte (mosiBits b) = b ∧ (mosiBits b).length = 8 ∧
    ∀ k, k < 8 → (mosiBits b)[k]? = some (b.getLsbD (7 - k))) ∧
  (∀ (b r : Byte) (first second : Nat → Bool),
    (transferPhases b first second).length = 16 ∧
    (∀ k, k < 8 → ∃ p q, (transferPhases b first second)[2 * k]? = some p ∧ p.sck = false ∧
      (transferPhases b first second)[2 * k + 1]? = some q ∧ q.sck = true) ∧
    sampledMosi (transferPhases b first second) = mosiBits b ∧
    ((∀ k, k < 8 → second k = r.getLsbD (7 - k)) → sampledMiso (transferPhases b first second) = r)) ∧
  (∀ s : State, s.spiOn = true → s.sckIdle = some false)

/-! ### Reset, registers and the host -/

/-- R300: the power-on state. -/
def Obligations.ResetIsPowerOn : Prop :=
  State.reset.csCmd = .z ∧ State.reset.csData = .z ∧ State.reset.resetLine = .z ∧ State.reset.spiOn = false ∧
  State.reset.resetPin = none ∧ State.reset.sckIdle = none ∧ State.reset.todo = [] ∧
  State.reset.lCmd = 0 ∧ State.reset.lReg = 0 ∧ State.reset.lA = 0 ∧ State.reset.lB = 0 ∧ State.reset.lLen = 0 ∧
  (∀ n, State.reset.hostRegister n = 0) ∧ State.reset.trace = [] ∧ State.reset.completions = []

/-- The reset state meets the invariants. -/
def Obligations.ResetMeetsInvariants : Prop :=
  State.reset.busInv ∧ State.reset.memInv ∧ State.reset.preInitInv

/-- R24: what each host register reads as, and what a write of each does. -/
def Obligations.HostRegisterMap : Prop :=
  ∀ (s : State) (rest : List Turn) (n : Nat) (v : Long),
    (s.hostRegister 0 = 0 ∧ s.hostRegister 1 = s.statusWord.zeroExtend 32 ∧
      s.hostRegister 2 = s.argReg.zeroExtend 32 ∧ s.hostRegister 3 = s.argA.zeroExtend 32 ∧
      s.hostRegister 4 = s.argB.zeroExtend 32 ∧ s.hostRegister 5 = s.bufLen ∧
      s.hostRegister 6 = s.result.zeroExtend 32 ∧ s.hostRegister 7 = s.xcount ∧ s.hostRegister 8 = s.errPos ∧
      s.hostRegister 9 = s.linesWord.zeroExtend 32 ∧ (9 < n → s.hostRegister n = 0)) ∧
    (s.agenda = .host (.read n) :: rest →
      step s = .next { s with agenda := rest, reads := s.reads ++ [s.hostRegister n] }) ∧
    (s.agenda = .host (.write 2 v) :: rest → step s = .next { s with agenda := rest, argReg := v.truncate 8 }) ∧
    (s.agenda = .host (.write 3 v) :: rest → step s = .next { s with agenda := rest, argA := v.truncate 16 }) ∧
    (s.agenda = .host (.write 4 v) :: rest → step s = .next { s with agenda := rest, argB := v.truncate 16 }) ∧
    (s.agenda = .host (.write 5 v) :: rest → step s = .next { s with agenda := rest, bufLen := v }) ∧
    (s.agenda = .host (.write n v) :: rest → n = 1 ∨ 6 ≤ n → step s = .next { s with agenda := rest })

/-- R25, R271: the fields of STATUS. -/
def Obligations.StatusFields : Prop :=
  ∀ s : State, s.statusWord.getLsbD 0 = s.busy ∧ s.statusWord.getLsbD 1 = s.initDone ∧
    s.statusWord.getLsbD 2 = s.ovr ∧ s.statusWord.getLsbD 3 = false ∧
    (s.statusWord.extractLsb' 4 4).toNat =
      (match s.err with
       | .ok => 0 | .timeout => 1 | .invalidFormat => 2 | .outOfBounds => 3 | .invalidArgument => 4
       | .illegalCommand => 5 | .notInitialized => 6)

/-- R28: the fields of LINES. -/
def Obligations.LinesFields : Prop :=
  ∀ s : State, s.linesWord.getLsbD 0 = s.cfg ∧
    (s.linesWord.getLsbD 1 = true ↔ s.cfg = true ∧ s.csCmd = .high) ∧
    (s.linesWord.getLsbD 2 = true ↔ s.cfg = true ∧ s.csData = .high) ∧
    (s.linesWord.getLsbD 3 = true ↔ s.cfg = true ∧ s.resetLine = .driven .asserted) ∧
    s.linesWord.getLsbD 4 = s.lastRdy ∧ s.linesWord.extractLsb' 5 3 = 0

/-- R27: a write of CMD while idle latches the operands and makes BUSY 1; while busy it only sets OVR; and writes of
the operand registers while busy change those registers alone: the latched operands and the running command stand. -/
def Obligations.CommandAcceptAndOverrun : Prop :=
  ∀ (s : State) (rest : List Turn) (v : Long),
    (s.agenda = .host (.write 0 v) :: rest → s.busy = false →
      ∃ t, step s = .next t ∧ t.busy = true ∧
        t = { s with agenda := rest, lCmd := v.truncate 8, lReg := s.argReg, lA := s.argA, lB := s.argB,
                     lLen := s.bufLen, todo := [.command] }) ∧
    (s.agenda = .host (.write 0 v) :: rest → s.busy = true →
      step s = .next { s with agenda := rest, ovr := true }) ∧
    (∀ n, 2 ≤ n → n ≤ 5 → s.agenda = .host (.write n v) :: rest → s.busy = true →
      ∃ t, step s = .next t ∧ t.lCmd = s.lCmd ∧ t.lReg = s.lReg ∧ t.lA = s.lA ∧ t.lB = s.lB ∧ t.lLen = s.lLen ∧
        t.todo = s.todo ∧ t.trace = s.trace ∧ t.ovr = s.ovr ∧
        t.argReg = (if n = 2 then v.truncate 8 else s.argReg) ∧ t.argA = (if n = 3 then v.truncate 16 else s.argA) ∧
        t.argB = (if n = 4 then v.truncate 16 else s.argB) ∧ t.bufLen = (if n = 5 then v else s.bufLen) ∧
        t = { s with agenda := rest, argReg := t.argReg, argA := t.argA, argB := t.argB, bufLen := t.bufLen })

/-- R32: the latched operands change only at an accept, which latches the host's registers. -/
def Obligations.OnlyAcceptLatches : Prop :=
  ∀ s t : State, step s = .next t →
    (t.lCmd = s.lCmd ∧ t.lReg = s.lReg ∧ t.lA = s.lA ∧ t.lB = s.lB ∧ t.lLen = s.lLen) ∨
    (∃ v rest, s.agenda = .host (.write 0 v) :: rest ∧ s.busy = false ∧ t.lCmd = v.truncate 8 ∧ t.lReg = s.argReg ∧
      t.lA = s.argA ∧ t.lB = s.argB ∧ t.lLen = s.bufLen)

/-- R34: INIT_DONE is 0 at power-on; INIT sets it; nothing clears it; while it is 0 every command but INIT completes
NOT_INITIALIZED with no bus event. -/
def Obligations.InitDoneRule : Prop :=
  State.reset.initDone = false ∧
  (∀ s : State, 3 ≤ s.grant → ∃ t, exec .init s = .next t ∧ t.initDone = true) ∧
  (∀ s t : State, step s = .next t → s.initDone = true → t.initDone = true) ∧
  (∀ (s : State) (i : Instr), i ∈ legalCommandsButInit → s.initDone = false →
    ∃ t, exec i s = .next t ∧ t.err = .notInitialized ∧ t.busy = false ∧ t.trace = s.trace)

/-- R35: OVR is 0 at power-on; a CMD write while busy sets it; no step clears it. -/
def Obligations.OvrIsSticky : Prop :=
  State.reset.ovr = false ∧
  (∀ (s : State) (v : Long) (rest : List Turn), s.agenda = .host (.write 0 v) :: rest → s.busy = true →
    ∃ t, step s = .next t ∧ t.ovr = true) ∧
  (∀ s t : State, step s = .next t → s.ovr = true → t.ovr = true)

/-- R29: a host access to a buffer reaches the elements below the capacity and no others: a write changes that element
alone, a read of `DST` while idle returns it, and an access at or above the capacity stops. -/
def Obligations.HostBufferAccess : Prop :=
  ∀ (s : State) (rest : List Turn) (i : Nat) (b : Byte) (w : Half),
    (s.agenda = .host (.writeSrc i b) :: rest → i < s.params.srcCap →
      ∃ t, step s = .next t ∧ t.srcAt i = b ∧ (∀ j, j ≠ i → t.srcAt j = s.srcAt j) ∧
        t = { s with agenda := rest, src := t.src, srcOld := t.srcOld }) ∧
    (s.agenda = .host (.writeSrcw i w) :: rest → i < s.params.srcwCap →
      ∃ t, step s = .next t ∧ t.srcwAt i = w ∧ (∀ j, j ≠ i → t.srcwAt j = s.srcwAt j) ∧
        t = { s with agenda := rest, srcw := t.srcw, srcwOld := t.srcwOld }) ∧
    (s.agenda = .host (.writeDst i b) :: rest → i < s.params.dstCap → s.busy = false →
      ∃ t, step s = .next t ∧ t.dstAt i = b ∧ (∀ j, j ≠ i → t.dstAt j = s.dstAt j) ∧
        t = { s with agenda := rest, dst := t.dst }) ∧
    (s.agenda = .host (.readDst i) :: rest → i < s.params.dstCap → s.busy = false →
      step s = .next { s with agenda := rest, reads := s.reads ++ [(s.dstAt i).zeroExtend 32] }) ∧
    (s.agenda = .host (.writeSrc i b) :: rest → s.params.srcCap ≤ i → step s = .fault .bufferIndex) ∧
    (s.agenda = .host (.writeSrcw i w) :: rest → s.params.srcwCap ≤ i → step s = .fault .bufferIndex) ∧
    (s.agenda = .host (.writeDst i b) :: rest → s.params.dstCap ≤ i → step s = .fault .bufferIndex) ∧
    (s.agenda = .host (.readDst i) :: rest → s.params.dstCap ≤ i → step s = .fault .bufferIndex)

/-- R82: a read of a source element returns what it holds, or, where the host wrote it while the command runs, that or
one of the values it held; after such a write the old and the new value are the two admitted. -/
def Obligations.RacedReadIsOldOrNew : Prop :=
  (∀ (s : State) (i : Nat), (srcByte i s).1 = s.srcAt i ∨ (srcByte i s).1 ∈ oldValues s.srcOld i) ∧
  (∀ (s : State) (i : Nat), (srcWord i s).1 = s.srcwAt i ∨ (srcWord i s).1 ∈ oldValues s.srcwOld i) ∧
  (∀ (s : State) (i : Nat) (b : Byte), s.busy = true → s.srcOld = [] →
    (srcByte i (hostWriteSrc i b s)).1 = b ∨ (srcByte i (hostWriteSrc i b s)).1 = s.srcAt i) ∧
  (∀ (s : State) (i : Nat) (w : Half), s.busy = true → s.srcwOld = [] →
    (srcWord i (hostWriteSrcw i w s)).1 = w ∨ (srcWord i (hostWriteSrcw i w s)).1 = s.srcwAt i)

/-! ### The step -/

/-- Where the sequencer meets an object that decodes to `i`, the step is `exec` of `i` on the state in which the object's
place has been left behind: for a command word and for every object. At the head of a loader's loop, the engine's next
steps read exactly the elements of the record that stands at the cursor, and the step after them runs the instruction
they decode to. A turn the agenda grants is the same with that grant (notes/assumptions/2.md). -/
def Obligations.StepRunsDecodedInstruction : Prop :=
  ∀ (s : State) (i : Instr) (r : List Micro),
    (s.agenda = [] → s.todo = .command :: r → decode (.command s.lCmd) = .ok i → step s = exec i s.pop) ∧
    (s.agenda = [] → s.todo = .pluginRecord :: r → s.sourcesStable → s.cur < s.len →
      decode (.plugin ((List.range (min 3 (s.len - s.cur))).map fun k => s.srcwAt (s.cur + k))) = .ok i →
      ∃ ws, decode (.plugin ws) = .ok i ∧ (∀ k, k < ws.length → ws[k]? = some (s.srcwAt (s.cur + k))) ∧
        runEngine (ws.length + 1) s = { s with todo := .pluginWords ws :: r } ∧
        step { s with todo := .pluginWords ws :: r } = exec i s.pop) ∧
    (s.agenda = [] → s.todo = .appRecord :: r → s.sourcesStable → s.cur < s.len →
      decode (.app ((List.range (min 5 (s.len - s.cur))).map fun k => s.srcAt (s.cur + k))) = .ok i →
      ∃ bs, decode (.app bs) = .ok i ∧ (∀ k, k < bs.length → bs[k]? = some (s.srcAt (s.cur + k))) ∧
        runEngine (bs.length + 1) s = { s with todo := .appBytes bs :: r } ∧
        step { s with todo := .appBytes bs :: r } = exec i s.pop) ∧
    (s.agenda = [] → meet s = .instr i → step s = exec i s.pop) ∧
    (∀ g rest, s.agenda = .engine g :: rest → meet { s with agenda := rest, grant := g } = .instr i →
      step s = exec i { s with agenda := rest, grant := g }.pop)

/-- R109, R304: a WAITDONE turn reads STATUS into the host's record: while BUSY is 1 it gives the engine a turn and stays
on the agenda, and with BUSY 0 it leaves the agenda and nothing else happens (notes/assumptions/2.md). -/
def Obligations.WaitDoneTurn : Prop :=
  ∀ (s : State) (rest : List Turn), s.agenda = .waitDone :: rest →
    (s.busy = true →
      step s = step { s with reads := s.reads ++ [s.statusWord.zeroExtend 32],
                             agenda := .engine s.grant :: .waitDone :: rest } ∧
      ∃ t, step s = .next t ∧ t.agenda = .waitDone :: rest ∧ t.reads = s.reads ++ [s.statusWord.zeroExtend 32]) ∧
    (s.busy = false →
      step s = .next { s with reads := s.reads ++ [s.statusWord.zeroExtend 32], agenda := rest })

/-- R30, R31: a turn of several engine steps is those steps one at a time: the grant only groups them. -/
def Obligations.GrantOnlyGroupsEngineSteps : Prop :=
  ∀ (s : State) (n : Nat), s.agenda = [] →
    ∃ t, step { s with grant := n } = .next t ∧
      Host.Core.run Sys2Proof.core (n + 1) { s with grant := 0 } = .next { t with grant := 0 }

/-- R46: with no command running, and in a host access, no bus event is appended. -/
def Obligations.NoEventOutsideCommands : Prop :=
  ∀ s t : State, step s = .next t → s.todo = [] ∨ (∃ a rest, s.agenda = .host a :: rest) → t.trace = s.trace

/-- R41: no step removes or reorders an event or a completion; R8: no step changes a parameter. -/
def Obligations.StepOnlyAppends : Prop :=
  ∀ s t : State, step s = .next t →
    (∃ es, t.trace = s.trace ++ es) ∧ (∃ cs, t.completions = s.completions ++ cs) ∧ t.params = s.params

/-- R26, R78: while a command runs, the completion registers and the completion list stand as they were. -/
def Obligations.ResultsStandWhileBusy : Prop :=
  ∀ s t : State, step s = .next t → t.busy = true →
    t.err = s.err ∧ t.result = s.result ∧ t.xcount = s.xcount ∧ t.errPos = s.errPos ∧ t.completions = s.completions

/-- R43-R45: every step keeps the bus protocol. -/
def Obligations.StepKeepsBusProtocol : Prop :=
  ∀ s t : State, s.busInv → step s = .next t → t.busInv

/-- R43, R44, R45: what the protocol means for a trace and for the lines: a bracket opens after `RDY(1)` and closes
before another opens; what stands inside a `CS_CMD` bracket and inside a `CS_DATA` bracket. -/
def Obligations.ProtocolMeansSelectRules : Prop :=
  (∀ (t a b : List BusEvent) (l : Line) (p : BusPhase), busPhase t = some p → t = a ++ .sel l false :: b →
    ∃ a', a = a' ++ [.rdy true]) ∧
  (∀ (t a m b : List BusEvent) (p : BusPhase), busPhase t = some p →
    t = a ++ .sel .cmd false :: (m ++ .sel .cmd true :: b) → .sel .cmd true ∉ m →
    ∃ o i o1 i1 o2 i2 o3 i3, m = [.xfer o i, .xfer o1 i1, .xfer o2 i2, .xfer o3 i3] ∧ (o = 0x02#8 ∨ o = 0x03#8)) ∧
  (∀ (t a m b : List BusEvent) (l l' : Line) (p : BusPhase), busPhase t = some p →
    t = a ++ .sel l false :: (m ++ .sel l' false :: b) → .sel l true ∈ m) ∧
  (∀ (t a m b : List BusEvent) (p : BusPhase), busPhase t = some p →
    t = a ++ .sel .data false :: (m ++ .sel .data true :: b) → .sel .data true ∉ m →
    (∀ e ∈ m, (∃ v, e = .rdy v) ∨ ∃ o i, e = .xfer o i) ∧
    (∀ m1 m2 o i, m = m1 ++ .xfer o i :: m2 → ∃ m0, m1 = m0 ++ [.rdy true])) ∧
  (∀ s : State, s.busInv → ¬ (s.csCmd = .low ∧ s.csData = .low)) ∧
  (∀ s : State, s.busInv → s.busy = false → s.csCmd ≠ .low ∧ s.csData ≠ .low)

/-- R34, R46, R250, R251, R302: every step keeps the state before INIT as the rules give it: no line driven, no event,
but INIT's own. That `LINES.CFG` is still 0 after CFG(PINS) and CFG(SPI) is the model's reading of R251, which
notes/assumptions/12.md records against R28's "INIT step 1". -/
def Obligations.StepKeepsPreInit : Prop :=
  ∀ s t : State, s.preInitInv → step s = .next t → t.preInitInv

/-- Every step keeps the canonical form of the memories (notes/assumptions/4.md). -/
def Obligations.StepKeepsMemoryForm : Prop :=
  ∀ s t : State, s.memInv → step s = .next t → t.memInv

/-- R29, R78: the engine only reads `SRC` and `SRCW`, and writes `DST` only at the completion of a STREAM_READ: a step
that is no host access leaves the source memories as they are, and `DST` too while it leaves BUSY at 1, and also where
the running command is not STREAM_READ. -/
def Obligations.EngineLeavesSourcesAlone : Prop :=
  ∀ s t : State, step s = .next t → (∀ a rest, s.agenda ≠ .host a :: rest) →
    t.src = s.src ∧ t.srcw = s.srcw ∧ (t.busy = true → t.dst = s.dst) ∧
      (decodeCommand s.lCmd ≠ .streamRead → .complete .received ∉ s.todo → t.dst = s.dst)

/-! ### Completion and errors -/

/-- R275: error entry. `XCOUNT` is written for the stream and load commands alone; for STREAM_READ, `DST` holds the
bytes written so far; the position of a TIMEOUT is the record's start in a load and 0 elsewhere. A count that 32
bits cannot hold leaves `XCOUNT` free (notes/assumptions/7.md). -/
def Obligations.ErrorEntry : Prop :=
  ∀ (s : State) (e : ErrCode) (pos : Nat),
    (raise e pos s).busy = false ∧ (raise e pos s).err = e ∧ (raise e pos s).errPos = BitVec.ofNat 32 pos ∧
    (raise e pos s).result = s.result ∧
    (raise e pos s).xcount =
      (if decodeCommand s.lCmd ∈ [Instr.streamWrite, .streamRead, .loadPlugin, .loadApp] then countRegister s.xc
       else s.xcount) ∧
    (raise e pos s) = { s with err := e, errPos := BitVec.ofNat 32 pos, xcount := (raise e pos s).xcount, todo := [],
                               dst := (raise e pos s).dst, dstIn := [], srcOld := [], srcwOld := [],
                               completions := (raise e pos s).completions } ∧
    (decodeCommand s.lCmd ≠ .streamRead → (raise e pos s).dst = s.dst) ∧
    (decodeCommand s.lCmd = .streamRead →
      ∀ j, (raise e pos s).dstAt j = (readBuffer s.dstIn j).getD (s.dstAt j)) ∧
    s.posNow = if decodeCommand s.lCmd ∈ [Instr.loadPlugin, .loadApp] then s.cur else 0

/-- R26, R42, R78: a completion writes the registers its command lists in one update with BUSY <- 0, and lists them
as the completion entry, with the bytes of `DST` for STREAM_READ. A STREAM_READ's completion writes the bytes
received into `DST` in that same update, over whatever `DST` held, and lists those. A count that 32 bits cannot hold
leaves `XCOUNT` free (notes/assumptions/7.md). -/
def Obligations.CompletionEntry : Prop :=
  (∀ (s : State) (e : ErrCode) (pos : Nat) (r : Option Half) (c : Option Nat),
    (finish e pos r c s).busy = false ∧ (finish e pos r c s).err = e ∧
    (finish e pos r c s).errPos = BitVec.ofNat 32 pos ∧ (finish e pos r c s).result = r.getD s.result ∧
    (finish e pos r c s).xcount = (match c with | some n => countRegister n | none => s.xcount) ∧
    ∃ d, (finish e pos r c s).completions = s.completions ++
        [{ cmd := s.lCmd, err := e, result := r.getD s.result, xcount := (finish e pos r c s).xcount,
           errPos := BitVec.ofNat 32 pos, dst := d }] ∧
      (s.lCmd = 0x05 → ∀ n, c = some n → d.length = n ∧ ∀ j, j < n → d[j]? = some (s.dstAt j)) ∧
      (s.lCmd ≠ 0x05 → d = [])) ∧
  (∀ s : State, (complete .received s).busy = false ∧ (complete .received s).err = .ok ∧
    (complete .received s).xcount = countRegister s.xc ∧
    (∀ j, (complete .received s).dstAt j = (readBuffer s.dstIn j).getD (s.dstAt j)) ∧
    ∃ c, (complete .received s).completions = s.completions ++ [c] ∧
      (s.lCmd = 0x05 → c.dst.length = s.xc ∧
        ∀ j, j < s.xc → c.dst[j]? = some ((readBuffer s.dstIn j).getD (s.dstAt j))))

/-- R257: a legal command other than INIT, accepted before INIT. -/
def Obligations.NotInitializedRefusal : Prop :=
  ∀ (s : State) (i : Instr), i ∈ legalCommandsButInit → decodeCommand s.lCmd = i → s.initDone = false →
    ∃ t, exec i s = .next t ∧ t.err = .notInitialized ∧ t.errPos = 0 ∧ t.result = s.result ∧ t.busy = false ∧
      t.xcount = (if i ∈ [Instr.streamWrite, .streamRead, .loadPlugin, .loadApp] then 0 else s.xcount) ∧
      t = { s with err := t.err, errPos := t.errPos, xcount := t.xcount, todo := [], xc := t.xc, dstIn := [], srcOld := [],
                   srcwOld := [], completions := t.completions }

/-- R276: a buffer operand that does not fit its memory is refused before any bus event. -/
def Obligations.InvalidArgumentRefusal : Prop :=
  ∀ (s : State) (i : Instr), s.initDone = true → decodeCommand s.lCmd = i →
    (i = .streamWrite ∧ s.params.srcCap < s.len) ∨ (i = .streamRead ∧ s.params.dstCap < s.len) ∨
      (i = .loadPlugin ∧ s.params.srcwCap < s.len) ∨ (i = .loadApp ∧ s.params.srcCap < s.len) →
    ∃ t, exec i s = .next t ∧ t.err = .invalidArgument ∧ t.errPos = 0 ∧ t.xcount = 0 ∧ t.busy = false ∧
      t = { s with err := t.err, errPos := t.errPos, xcount := t.xcount, todo := [], xc := 0, dstIn := [], srcOld := [],
                   srcwOld := [], completions := t.completions }

/-- R259: an illegal command word, whatever INIT_DONE is. -/
def Obligations.IllegalCommandCompletes : Prop :=
  ∀ (s : State) (i : Instr), illegalCommands i → decodeCommand s.lCmd = i →
    ∃ t, exec i s = .next t ∧ t.err = .illegalCommand ∧ t.errPos = 0 ∧ t.busy = false ∧
      t = { s with err := t.err, errPos := t.errPos, todo := [], dstIn := [], srcOld := [], srcwOld := [],
                   completions := t.completions }

/-- R272, R208: at every gate, `n` low samples in a row under a timeout of `n` end the command with TIMEOUT before any
select edge: for WAIT_READY, the streaming commands and the frames, in which every other command has its gates. -/
def Obligations.TimeoutBeforeSelect : Prop :=
  ∀ (s : State) (n : Nat) (reg : Byte) (v : Half),
    s.params.readyTimeout = some n → 1 ≤ n → s.notReadyFor n → 2 * n ≤ s.grant →
    (s.initDone = true → exec .waitReady s = .next (raise .timeout s.posNow (s.polledLow n))) ∧
    (s.initDone = true → s.len ≤ s.params.srcCap →
      exec .streamWrite s = .next (raise .timeout s.posNow { s.polledLow n with xc := 0 })) ∧
    (s.initDone = true → s.len ≤ s.params.dstCap →
      exec .streamRead s = .next (raise .timeout s.posNow { s.polledLow n with xc := 0, dstIn := [] })) ∧
    exec (.sciW reg v) s = .next (raise .timeout s.posNow (s.polledLow n)) ∧
    exec (.sciR reg) s = .next (raise .timeout s.posNow (s.polledLow n))

/-- R131, R132: with no timeout a gate whose samples are all 0 goes on polling with BUSY 1; with a timeout of `n` it ends
after at most `n` samples, by a sample of 1 or by TIMEOUT. A sample of 0 and its count are two engine steps, so `m`
samples of 0 take `2 * m`: the model's division, notes/assumptions/13.md. -/
def Obligations.GateHangsOrEnds : Prop :=
  (∀ (s : State) (r : List Micro) (m : Nat), s.todo = .gate :: r → s.polls = 0 → s.params.readyTimeout = none →
    s.notReadyFor m → runEngine (2 * m) s = s.polledLow m ∧ (runEngine (2 * m) s).busy = true) ∧
  (∀ (s : State) (r : List Micro) (n : Nat), s.todo = .gate :: r → s.polls = 0 →
    s.params.readyTimeout = some n → 1 ≤ n →
    ∃ m, 1 ≤ m ∧ m ≤ n ∧
      (((runEngine (2 * m - 1) s).todo = r ∧
         (runEngine (2 * m - 1) s).trace = s.trace ++ (List.replicate (m - 1) (.rdy false) ++ [.rdy true])) ∨
       ((runEngine (2 * m) s).todo = [] ∧ (runEngine (2 * m) s).err = .timeout ∧
         (runEngine (2 * m) s).trace = s.trace ++ List.replicate m (.rdy false))))

/-! ### Gate and control transactions -/

/-- R131, R133: WAIT_READY. -/
def Obligations.WaitReadyCompletes : Prop :=
  ∀ (s : State) (k : Nat), s.initDone = true → s.gateOpens k → 2 * k + 2 ≤ s.grant →
    ∃ t, exec .waitReady s = .next t ∧ t = complete .nothing (s.gatePassed k) ∧ t.err = .ok ∧ t.errPos = 0 ∧
      t.result = s.result ∧ t.xcount = s.xcount ∧ t.busy = false ∧ s.sameAround t

/-- R141, R143, R144: the control write frame with its gate, and nothing else; the turn goes on from there. -/
def Obligations.ControlWriteFrame : Prop :=
  ∀ (s : State) (k : Nat) (reg : Byte) (v : Half), s.gateOpens k → 2 * k + 7 ≤ s.grant →
    exec (.sciW reg v) s = .next (runEngine (s.grant - (2 * k + 7)) (s.wroteFrame k reg v))

/-- R146: the control read frame with its gate, the chip's third and fourth bytes being kept as HI and LO. -/
def Obligations.ControlReadFrame : Prop :=
  ∀ (s : State) (k : Nat) (reg : Byte), s.gateOpens k → 2 * k + 7 ≤ s.grant →
    exec (.sciR reg) s = .next (runEngine (s.grant - (2 * k + 7)) (s.didReadFrame k reg))

/-- R142: CTRL_WRITE sends `L_A` to register `L_REG` in one frame and completes OK; `RESULT` and `XCOUNT` stand. -/
def Obligations.CtrlWriteCompletes : Prop :=
  ∀ (s : State) (k : Nat), s.initDone = true → s.gateOpens k → 2 * k + 9 ≤ s.grant →
    ∃ t, exec .ctrlWrite s = .next t ∧ t = complete .nothing (s.wroteFrame k s.lReg s.lA) ∧
      t.err = .ok ∧ t.errPos = 0 ∧ t.result = s.result ∧ t.xcount = s.xcount ∧ t.busy = false ∧
      s.sameAround t

/-- R147: CTRL_READ returns the two bytes received, high byte first, in `RESULT`; `XCOUNT` stands. -/
def Obligations.CtrlReadCompletes : Prop :=
  ∀ (s : State) (k : Nat), s.initDone = true → s.gateOpens k → 2 * k + 9 ≤ s.grant →
    ∃ t, exec .ctrlRead s = .next t ∧ t = complete .readValue (s.didReadFrame k s.lReg) ∧
      t.err = .ok ∧ t.errPos = 0 ∧ t.result = cat16 (s.misoAt 2) (s.misoAt 3) ∧ t.xcount = s.xcount ∧ t.busy = false ∧
      s.sameAround t

/-- R148: after a CTRL_WRITE, a CTRL_READ accepted for the same register, whatever the host has done in between that leaves
the trace alone, gives the value written exactly when the chip returns its two bytes in the read frame's third and fourth
transfers; the trace holds the write frame and then the read frame. -/
def Obligations.WriteThenReadRoundTrip : Prop :=
  ∀ (s : State) (k : Nat), s.initDone = true → s.gateOpens k → 2 * k + 9 ≤ s.grant →
    ∃ t, exec .ctrlWrite s = .next t ∧ t.trace = (s.wroteFrame k s.lReg s.lA).trace ∧
      ∀ (u : State) (j : Nat), u.initDone = t.initDone → u.trace = t.trace → u.lReg = s.lReg → u.gateOpens j →
        2 * j + 9 ≤ u.grant →
        ∃ w, exec .ctrlRead u = .next w ∧ w.trace = (u.didReadFrame j s.lReg).trace ∧
          (w.result = s.lA ↔ u.misoAt 2 = hi8 s.lA ∧ u.misoAt 3 = lo8 s.lA)

/-! ### Register map helpers -/

/-- R181: RAM_WRITE is the write of the address to the RAM-address register and of the value to the RAM-data
register. -/
def Obligations.RamWriteCompletes : Prop :=
  ∀ (s : State) (j k : Nat), s.initDone = true → s.gateOpens j →
    (s.wroteFrame j s.params.regWramAddr s.lA).gateOpens k → 2 * (j + k) + 17 ≤ s.grant →
    ∃ t, exec .ramWrite s = .next t ∧
      t = complete .nothing ((s.wroteFrame j s.params.regWramAddr s.lA).wroteFrame k s.params.regWram s.lB) ∧
      t.err = .ok ∧ t.errPos = 0 ∧ t.result = s.result ∧ t.xcount = s.xcount ∧ t.busy = false ∧
      s.sameAround t

/-- R184: RAM_READ is the write of the address and a read of the RAM-data register, whose value `RESULT` takes. -/
def Obligations.RamReadCompletes : Prop :=
  ∀ (s : State) (j k : Nat), s.initDone = true → s.gateOpens j →
    (s.wroteFrame j s.params.regWramAddr s.lA).gateOpens k → 2 * (j + k) + 17 ≤ s.grant →
    ∃ t, exec .ramRead s = .next t ∧
      t = complete .readValue ((s.wroteFrame j s.params.regWramAddr s.lA).didReadFrame k s.params.regWram) ∧
      t.err = .ok ∧ t.errPos = 0 ∧ t.result = cat16 (s.misoAt 6) (s.misoAt 7) ∧ t.xcount = s.xcount ∧ t.busy = false ∧
      s.sameAround t

/-- R185, R187, R189, R190: a read-modify-write reads `L_REG`, writes the value read with the bits of the mask set or
cleared, always, and returns the value written. -/
def Obligations.ReadModifyWriteCompletes : Prop :=
  ∀ (s : State) (j k : Nat) (i : Instr) (op : Rmw) (w : Half),
    (i = .regSetBits ∧ op = .set ∧ w = s.nextRead ||| s.lA) ∨
      (i = .regClearBits ∧ op = .clear ∧ w = s.nextRead &&& ~~~s.lA) →
    s.initDone = true → s.gateOpens j → (s.didReadFrame j s.lReg).gateOpens k → 2 * (j + k) + 18 ≤ s.grant →
    ∃ t, exec i s = .next t ∧
      t = complete (.modified op) ({ s.didReadFrame j s.lReg with rd := s.nextRead }.wroteFrame k s.lReg w) ∧
      t.err = .ok ∧ t.errPos = 0 ∧ t.result = w ∧ t.xcount = s.xcount ∧ t.busy = false ∧
      s.sameAround t

/-- R191: setting and then clearing the bits of a mask leaves `u & ~m`, which is `u` exactly when `u & m = 0`. -/
def Obligations.SetThenClearLaw : Prop :=
  ∀ u m : Half, Rmw.clear.apply (Rmw.set.apply u m) m = u &&& ~~~m ∧
    (Rmw.clear.apply (Rmw.set.apply u m) m = u ↔ u &&& m = 0)

/-! ### Streaming -/

/-- R161-R165: STREAM_WRITE sends the first `m` bytes of `SRC` and stops at a low READY or at the count; it completes OK
with `XCOUNT = m`, and no memory changes. -/
def Obligations.StreamWriteCompletes : Prop :=
  ∀ (s : State) (k m : Nat), s.initDone = true → s.len ≤ s.params.srcCap → s.sourcesStable → s.gateOpens k →
    s.bracketOf k m s.len → 2 * k + 3 * m + 5 ≤ s.grant →
    ∃ t, exec .streamWrite s = .next t ∧ t = complete .count (s.streamed k m s.srcAt) ∧
      t.err = .ok ∧ t.errPos = 0 ∧ t.result = s.result ∧ t.xcount = BitVec.ofNat 32 m ∧ t.busy = false ∧
      s.sameMemory t

/-- R166, R167: STREAM_READ stores the `m` bytes received in `DST[0 .. m-1]` and leaves every other element; it
completes OK with `XCOUNT = m`. -/
def Obligations.StreamReadCompletes : Prop :=
  ∀ (s : State) (k m : Nat), s.initDone = true → s.len ≤ s.params.dstCap → s.gateOpens k → s.bracketOf k m s.len →
    2 * k + 3 * m + 5 ≤ s.grant →
    ∃ t, exec .streamRead s = .next t ∧
      t = complete .received { s.streamed k m (fun _ => 0xFF) with dstIn := storeBytes [] m s.misoAt } ∧
      (∀ j, t.dstAt j = if j < m then s.misoAt j else s.dstAt j) ∧
      t.err = .ok ∧ t.errPos = 0 ∧ t.result = s.result ∧ t.xcount = BitVec.ofNat 32 m ∧ t.busy = false ∧
      (∀ j, t.srcAt j = s.srcAt j) ∧ (∀ j, t.srcwAt j = s.srcwAt j)

/-- R97, R161, R166: one byte of a bracket: a streaming write sends it and discards what is received; a streaming read
sends 0xFF and then stores what is received as `DST[XC]`'s new value (R78: `DST` itself waits for the completion) and no
other. The turn goes on from there. -/
def Obligations.StreamBytes : Prop :=
  ∀ (s : State) (b : Byte),
    exec (.sdiWriteByte b) s = .next (runEngine s.grant
      { s with misoIn := s.misoIn.drop 1, misoCount := s.misoCount + 1, xc := s.xc + 1,
               trace := s.trace ++ [.xfer b (s.misoAt 0)] }) ∧
    exec .sdiReadByte s = .next (runEngine s.grant
      { s with misoIn := s.misoIn.drop 1, misoCount := s.misoCount + 1, trace := s.trace ++ [.xfer 0xFF (s.misoAt 0)],
               todo := .storeByte (s.misoAt 0) :: s.todo }) ∧
    (1 ≤ s.grant → ∃ t, exec .sdiReadByte s = .next (runEngine (s.grant - 1) t) ∧
      (∀ j, readBuffer t.dstIn j = if j = s.xc then some (s.misoAt 0) else readBuffer s.dstIn j) ∧
      t = { s with misoIn := s.misoIn.drop 1, misoCount := s.misoCount + 1, xc := s.xc + 1,
                   trace := s.trace ++ [.xfer 0xFF (s.misoAt 0)], dstIn := t.dstIn })

/-! ### Plugin images -/

/-- R203, R205, R209: an RLE record that fits: one write of the RAM-address register, then exactly `count` writes of the
value to the RAM-data register; the cursor moves on by 3, and the loader's loop follows. -/
def Obligations.RleRecord : Prop :=
  ∀ (s : State) (addr : Half) (count : BitVec 15) (value : Half) (fs : List GatedFrame),
    s.cur + 3 ≤ s.len →
    plainFrames fs = (s.params.regWramAddr, addr) :: List.replicate count.toNat (s.params.regWram, value) →
    s.framesOpen fs → 2 * lowSamples fs + 10 * count.toNat + 10 ≤ s.grant →
    exec (.pluginRle addr count value) s =
      .next (runEngine (s.grant - (2 * lowSamples fs + 10 * count.toNat + 10))
        { s.wroteFrames fs with
          xc := s.xc + count.toNat, cur := s.cur + 3, recAddr := addr,
          recHdr := BitVec.ofNat 16 (2 ^ 15 + count.toNat), recCnt := count.zeroExtend 16, recVal := value,
          todo := .pluginRecord :: s.todo })

/-- R204, R205, R209: a literal record that fits: one write of the RAM-address register, then one write of each of the
next `count` words to the RAM-data register, in index order; the cursor moves on by `2 + count`. -/
def Obligations.LiteralRecord : Prop :=
  ∀ (s : State) (addr : Half) (count : BitVec 15) (fs : List GatedFrame),
    s.cur + (2 + count.toNat) ≤ s.len → s.sourcesStable →
    plainFrames fs = (s.params.regWramAddr, addr) ::
      (List.range count.toNat).map (fun j => (s.params.regWram, s.srcwAt (s.cur + 2 + j))) →
    s.framesOpen fs → 2 * lowSamples fs + 10 * count.toNat + 10 ≤ s.grant →
    exec (.pluginLit addr count) s =
      .next (runEngine (s.grant - (2 * lowSamples fs + 10 * count.toNat + 10))
        { s.wroteFrames fs with
          xc := s.xc + count.toNat, cur := s.cur + (2 + count.toNat), recAddr := addr,
          recHdr := count.zeroExtend 16, recCnt := count.zeroExtend 16, todo := .pluginRecord :: s.todo })

/-- R201, R202, R274, R275: a plugin record that does not lie inside the image ends the load with
OUT_OF_BOUNDS at its start, before any bus event of it, with XCOUNT the data writes so far: one word left; an RLE header
with no value word; a literal count that overruns. A count that 32 bits cannot hold leaves `XCOUNT` free
(notes/assumptions/7.md). -/
def Obligations.PluginOverrun : Prop :=
  ∀ (s : State) (r : List Micro), 3 ≤ s.grant → decodeCommand s.lCmd = .loadPlugin → s.agenda = [] →
    s.todo = .pluginRecord :: r → s.sourcesStable → s.cur < s.len →
    s.len = s.cur + 1 ∨ (s.len = s.cur + 2 ∧ (s.srcwAt (s.cur + 1)).getLsbD 15 = true) ∨
      ((s.srcwAt (s.cur + 1)).getLsbD 15 = false ∧ s.len < s.cur + 2 + (s.srcwAt (s.cur + 1)).toNat) →
    ∃ t, step s = .next t ∧ t.err = .outOfBounds ∧ t.errPos = BitVec.ofNat 32 s.cur ∧ t.busy = false ∧
      t.xcount = countRegister s.xc ∧
      t.trace = s.trace ∧ t.result = s.result ∧ s.sameAround t ∧ s.sameLines t

/-- R206: an image of no words: no bus event, ERR = OK, XCOUNT = 0. -/
def Obligations.EmptyPluginImage : Prop :=
  ∀ s : State, s.initDone = true → s.len = 0 → 2 ≤ s.grant →
    ∃ t, exec .loadPlugin s = .next t ∧ t.trace = s.trace ∧ t.err = .ok ∧ t.errPos = 0 ∧ t.xcount = 0 ∧
      t.result = s.result ∧ t.busy = false ∧ s.sameAround t ∧ s.sameLines t

/-- R200, R201, R203-R207, R210: LOAD_PLUGIN of any image of whole records that fills `L_LEN` words: its control
writes are exactly the records' writes, in order, and it completes OK with `XCOUNT` the RAM-data writes and one
completion entry. A count that 32 bits cannot hold leaves `XCOUNT` free (notes/assumptions/7.md). -/
def Obligations.LoadPluginRunsImage : Prop :=
  ∀ (s : State) (rs : List PluginRecord) (fs : List GatedFrame),
    s.initDone = true → (∀ r ∈ rs, r.fits) → s.len = (rs.flatMap PluginRecord.words).length →
    s.len ≤ s.params.srcwCap → s.sourcesStable →
    (∀ j, j < s.len → s.srcwAt j = (rs.flatMap PluginRecord.words).getD j 0) →
    plainFrames fs = rs.flatMap (PluginRecord.frames s.params) → s.framesOpen fs →
    ∃ n, ∀ g, n ≤ g → ∃ t, exec .loadPlugin { s with grant := g } = .next t ∧
      t.trace = (s.wroteFrames fs).trace ∧ t.err = .ok ∧ t.errPos = 0 ∧
      t.xcount = countRegister ((rs.map PluginRecord.dataCount).sum) ∧ t.result = s.result ∧
      (∃ d, t.completions = s.completions ++
          [{ cmd := s.lCmd, err := .ok, result := s.result, xcount := t.xcount, errPos := 0, dst := d }] ∧
        (s.lCmd ≠ 0x05 → d = [])) ∧
      t.busy = false ∧ s.sameAround t ∧
      t.csCmd = (s.wroteFrames fs).csCmd ∧ t.lastRdy = (s.wroteFrames fs).lastRdy

/-! ### Application images -/

/-- R221, R222, R223, R273, R275: the marker, met as LOAD_APP's first three bytes, moves the cursor to 3; a
shorter image or other bytes end the load with INVALID_FORMAT at 0, no bus event and `XCOUNT` the count so far. A count that 32 bits cannot
hold leaves `XCOUNT` free (notes/assumptions/7.md). -/
def Obligations.MarkerCheck : Prop :=
  (∀ s : State, exec .appMagic s = .next (runEngine s.grant { s with cur := 3 })) ∧
  (∀ s : State, decodeCommand s.lCmd = .loadApp → s.initDone = true → s.len ≤ s.params.srcCap → s.len < 3 →
    ∃ t, exec .loadApp s = .next t ∧ t.err = .invalidFormat ∧ t.errPos = 0 ∧ t.xcount = 0 ∧
      t.trace = s.trace ∧ t.busy = false ∧ t.result = s.result ∧ s.sameAround t ∧ s.sameLines t) ∧
  (∀ (s : State) (r : List Micro), 3 ≤ s.grant → decodeCommand s.lCmd = .loadApp → s.agenda = [] →
    s.todo = .magicBytes [] :: r → s.sourcesStable →
    ¬ (s.srcAt 0 = 0x50 ∧ s.srcAt 1 = 0x26 ∧ s.srcAt 2 = 0x48) →
    ∃ t, step s = .next t ∧ t.err = .invalidFormat ∧ t.errPos = 0 ∧ t.xcount = countRegister s.xc ∧
      t.trace = s.trace ∧ t.busy = false ∧ t.result = s.result ∧ s.sameAround t ∧ s.sameLines t)

/-- R227, R228, R231: a data record of type 0, 1 or 2 that fits: one write of the RAM-address register with the address
unchanged, then `floor(length / 2)` writes of the payload's big-endian words; the cursor moves on by `5 + adv(length)`. -/
def Obligations.DataRecord : Prop :=
  ∀ (s : State) (ty : Fin 3) (len addr : Half) (fs : List GatedFrame),
    s.cur + 5 + advBytes s.params.oddAdvance len ≤ s.len → s.sourcesStable →
    plainFrames fs = (s.params.regWramAddr, addr) :: (List.range (len.toNat / 2)).map (fun j =>
      (s.params.regWram, cat16 (s.srcAt (s.cur + 5 + 2 * j)) (s.srcAt (s.cur + 6 + 2 * j)))) →
    s.framesOpen fs → 2 * lowSamples fs + 11 * (len.toNat / 2) + 10 ≤ s.grant →
    ∃ v, exec (dataRecordOf ty len addr) s =
      .next (runEngine (s.grant - (2 * lowSamples fs + 11 * (len.toNat / 2) + 10))
        { s.wroteFrames fs with
          xc := s.xc + len.toNat / 2, cur := s.cur + (5 + advBytes s.params.oddAdvance len), recAddr := addr,
          recType := BitVec.ofNat 8 ty.val, recLen := len, recVal := v, todo := .appRecord :: s.todo })

/-- R226: the execute record makes exactly one write, of the activation register, and completes OK whatever its
length field and whatever follows it. A count that 32 bits cannot hold leaves `XCOUNT` free
(notes/assumptions/7.md). -/
def Obligations.ExecuteRecord : Prop :=
  ∀ (s : State) (k : Nat) (len addr : Half), s.cur + 5 ≤ s.len → s.gateOpens k → 2 * k + 9 ≤ s.grant →
    ∃ t, exec (.appExec len addr) s = .next t ∧
      t = complete .count
        ({ s with recType := 3, recLen := len, recAddr := addr }.wroteFrame k s.params.regAiaddr addr) ∧
      t.err = .ok ∧ t.errPos = 0 ∧ t.xcount = countRegister s.xc ∧ t.result = s.result ∧ t.busy = false ∧
      s.sameAround t

/-- R224: a record of a type above 3 ends the load before any bus event of it: with INVALID_FORMAT at its start, or
silently with OK where the parameter says so; earlier writes stay in the trace. A count that 32 bits cannot hold
leaves `XCOUNT` free (notes/assumptions/7.md). -/
def Obligations.UnknownRecordType : Prop :=
  ∀ (s : State) (b : Byte) (i : Instr), i ∈ badTypeRecords b → 1 ≤ s.grant → decodeCommand s.lCmd = .loadApp →
    ∃ t, exec i s = .next t ∧ t.trace = s.trace ∧ t.busy = false ∧ t.result = s.result ∧
      t.xcount = countRegister s.xc ∧ s.sameAround t ∧ s.sameLines t ∧
      (s.params.silentType = false → t.err = .invalidFormat ∧ t.errPos = BitVec.ofNat 32 s.cur) ∧
      (s.params.silentType = true → t.err = .ok ∧ t.errPos = 0)

/-- R225, R281: an application record of type 0 to 3 whose header, or whose payload, does not lie inside the buffer
ends the load with OUT_OF_BOUNDS at its start, before any bus event of it, with XCOUNT the data writes so far. A
count that 32 bits cannot hold leaves `XCOUNT` free (notes/assumptions/7.md). -/
def Obligations.ApplicationOverrun : Prop :=
  ∀ (s : State) (r : List Micro), 6 ≤ s.grant → decodeCommand s.lCmd = .loadApp → s.agenda = [] →
    s.todo = .appRecord :: r → s.sourcesStable → s.cur < s.len →
    (s.srcAt s.cur).toNat ≤ 3 →
    s.len < s.cur + 5 ∨ ((s.srcAt s.cur).toNat ≠ 3 ∧
      s.len < s.cur + 5 + advBytes s.params.oddAdvance (cat16 (s.srcAt (s.cur + 1)) (s.srcAt (s.cur + 2)))) →
    ∃ t, step s = .next t ∧ t.err = .outOfBounds ∧ t.errPos = BitVec.ofNat 32 s.cur ∧ t.busy = false ∧
      t.xcount = countRegister s.xc ∧
      t.trace = s.trace ∧ t.result = s.result ∧ s.sameAround t ∧ s.sameLines t

/-- R220-R232: LOAD_APP of any image of marker, data records and, or not, an execute record, whatever follows the
execute record: its control writes are exactly the records' writes, in order, with the activation write last, and it
completes OK with `XCOUNT` the RAM-data writes and one completion entry. Where the cursor keeps even steps, payloads
have even length. A count that 32 bits cannot hold leaves `XCOUNT` free (notes/assumptions/7.md). -/
def Obligations.LoadAppRunsImage : Prop :=
  ∀ (s : State) (rs : List AppRecord) (entry : Option (Half × Half)) (extra : Nat) (fs : List GatedFrame),
    s.initDone = true → (∀ r ∈ rs, r.payload.length < 2 ^ 16) →
    (s.params.oddAdvance = .full ∨ ∀ r ∈ rs, r.payload.length % 2 = 0) →
    s.len = (appImage rs entry).length + extra → (entry = none → extra = 0) →
    s.len ≤ s.params.srcCap → s.sourcesStable →
    (∀ j, j < (appImage rs entry).length → s.srcAt j = (appImage rs entry).getD j 0) →
    plainFrames fs = rs.flatMap (AppRecord.frames s.params) ++ activation s.params entry → s.framesOpen fs →
    ∃ n, ∀ g, n ≤ g → ∃ t, exec .loadApp { s with grant := g } = .next t ∧
      t.trace = (s.wroteFrames fs).trace ∧ t.err = .ok ∧ t.errPos = 0 ∧
      t.xcount = countRegister ((rs.map fun r => r.payload.length / 2).sum) ∧ t.result = s.result ∧
      (∃ d, t.completions = s.completions ++
          [{ cmd := s.lCmd, err := .ok, result := s.result, xcount := t.xcount, errPos := 0, dst := d }] ∧
        (s.lCmd ≠ 0x05 → d = [])) ∧
      t.busy = false ∧ s.sameAround t ∧
      t.csCmd = (s.wroteFrames fs).csCmd ∧ t.lastRdy = (s.wroteFrames fs).lastRdy

/-! ### Line control -/

/-- R251, R252, R255: INIT, whether or not it has run before: the lines and the channel are configured, the chip is hard
reset, and the clock divisor and the volume are written. -/
def Obligations.InitCompletes : Prop :=
  ∀ (s : State) (j k : Nat), s.gateOpens j →
    (s.initialised.wroteFrame j s.params.regClockf s.params.initClockf).gateOpens k → 2 * (j + k) + 24 ≤ s.grant →
    ∃ t, exec .init s = .next t ∧
      t = complete .nothing ((s.initialised.wroteFrame j s.params.regClockf s.params.initClockf).wroteFrame k
        s.params.regVol s.params.initVol) ∧
      t.err = .ok ∧ t.errPos = 0 ∧ t.result = s.result ∧ t.xcount = s.xcount ∧ t.initDone = true ∧ t.busy = false ∧
      s.sameMemory t

/-- R252, R253, R254: HARD_RESET pulses the reset output and changes nothing else; before INIT it is refused. -/
def Obligations.HardResetCompletes : Prop :=
  (∀ s : State, s.initDone = true → 5 ≤ s.grant →
    ∃ t, exec .hardReset s = .next t ∧ t = complete .nothing s.wasHardReset ∧ t.err = .ok ∧ t.errPos = 0 ∧
      t.result = s.result ∧ t.xcount = s.xcount ∧ t.busy = false ∧ s.sameMemory t) ∧
  (∀ s : State, s.initDone = false → decodeCommand s.lCmd = .hardReset →
    ∃ t, exec .hardReset s = .next t ∧ t.err = .notInitialized ∧ t.errPos = 0 ∧ t.trace = s.trace ∧
      t.result = s.result ∧ t.xcount = s.xcount ∧ t.busy = false ∧ s.sameLines t ∧ s.sameAround t)

/-- R21: the level on the reset pin: none before it is driven; while asserted the active level, while deasserted the
other. -/
def Obligations.ResetPinLevel : Prop :=
  ∀ s : State, (s.resetLine = .z → s.resetPin = none) ∧
    (s.resetLine = .driven .asserted → s.resetPin = some (!s.params.resetActiveLow)) ∧
    (s.resetLine = .driven .deasserted → s.resetPin = some s.params.resetActiveLow)
end

