-- ==== Sys2Proof/Laws/Bits.lean ====
section
/-! SUPPORT. The two bytes of a 16-bit value and the value they make. -/

namespace Sys2Proof.Machine

/-- The two bytes of a value, put together again, are the value (R64). -/
@[simp] theorem cat16_hi8_lo8 (v : Half) : cat16 (hi8 v) (lo8 v) = v := by
  apply BitVec.eq_of_getLsbD_eq
  intro i hi
  simp only [cat16, hi8, lo8, BitVec.getLsbD_append, BitVec.getLsbD_extractLsb']
  by_cases h : i < 8
  · simp [h]
  · have h8 : i - 8 < 8 := by omega
    have hs : 8 + (i - 8) = i := by omega
    simp [h, h8, hs]

/-- The high byte of two bytes put together is the first (R65). -/
@[simp] theorem hi8_cat16 (h l : Byte) : hi8 (cat16 h l) = h := by
  apply BitVec.eq_of_getLsbD_eq
  intro i hi
  simp only [cat16, hi8, BitVec.getLsbD_append, BitVec.getLsbD_extractLsb', hi]
  simp

/-- The low byte is the second. -/
@[simp] theorem lo8_cat16 (h l : Byte) : lo8 (cat16 h l) = l := by
  apply BitVec.eq_of_getLsbD_eq
  intro i hi
  simp only [cat16, lo8, BitVec.getLsbD_append, BitVec.getLsbD_extractLsb', hi]
  simp [hi]

end Sys2Proof.Machine
end

