-- ==== Sys2Proof/Laws/Buffers.lean ====
section
/-! SUPPORT. The laws of the buffers: a read after a write, and the canonical form. -/

namespace Sys2Proof.Machine

variable {α : Type}

@[simp] theorem readBuffer_nil (i : Nat) : readBuffer ([] : Buffer α) i = none := rfl

/-- A read of the written index gives the written value. -/
theorem readBuffer_write_same (m : Buffer α) (i : Nat) (v : α) : readBuffer (writeBuffer m i v) i = some v := by
  induction m with
  | nil => simp [writeBuffer, readBuffer]
  | cons e m ih =>
    obtain ⟨k, u⟩ := e
    unfold writeBuffer
    split
    · simp [readBuffer]
    · split
      · simp [readBuffer]
      · simp [readBuffer, Ne.symm ‹¬i = k›, ih]

/-- A write leaves every other index alone. -/
theorem readBuffer_write_other (m : Buffer α) {i j : Nat} (v : α) (h : j ≠ i) :
    readBuffer (writeBuffer m i v) j = readBuffer m j := by
  induction m with
  | nil => simp [writeBuffer, readBuffer, h.symm]
  | cons e m ih =>
    obtain ⟨k, u⟩ := e
    unfold writeBuffer
    split
    · simp [readBuffer, h.symm]
    · split
      · subst_vars; simp [readBuffer, h.symm]
      · simp [readBuffer, ih]

/-- The indices a write can leave in the list. -/
theorem mem_writeBuffer {m : Buffer α} {i : Nat} {v : α} {e : Nat × α} (h : e ∈ writeBuffer m i v) :
    e = (i, v) ∨ e ∈ m := by
  induction m with
  | nil => simpa [writeBuffer] using h
  | cons d m ih =>
    obtain ⟨k, u⟩ := d
    unfold writeBuffer at h
    split at h
    · simpa using h
    · split at h
      · rcases List.mem_cons.1 h with h | h <;> simp [h]
      · rcases List.mem_cons.1 h with h | h
        · simp [h]
        · rcases ih h with h | h <;> simp [h]

/-- A write keeps the canonical form. -/
theorem writeBuffer_wf {m : Buffer α} (i : Nat) (v : α) (h : BufferWf m) : BufferWf (writeBuffer m i v) := by
  induction m with
  | nil => simp [writeBuffer, BufferWf]
  | cons e m ih =>
    obtain ⟨k, u⟩ := e
    obtain ⟨hk, hm⟩ := List.pairwise_cons.1 h
    unfold writeBuffer
    split
    · refine List.pairwise_cons.2 ⟨fun e he => ?_, h⟩
      rcases List.mem_cons.1 he with rfl | he
      · assumption
      · exact Nat.lt_trans ‹i < k› (hk e he)
    · split
      · subst_vars; exact List.pairwise_cons.2 ⟨hk, hm⟩
      · refine List.pairwise_cons.2 ⟨fun e he => ?_, ih hm⟩
        rcases mem_writeBuffer he with rfl | he
        · dsimp only; omega
        · exact hk e he

/-- The empty memory, the one of the reset state, has the canonical form. -/
theorem nil_wf : BufferWf ([] : Buffer α) := List.Pairwise.nil

/-- A read after a write, of any index. -/
theorem readBuffer_write (m : Buffer α) (i j : Nat) (v : α) :
    readBuffer (writeBuffer m i v) j = if j = i then some v else readBuffer m j := by
  by_cases h : j = i
  · rw [h, if_pos rfl, readBuffer_write_same]
  · rw [if_neg h, readBuffer_write_other m v h]

/-- A read after new elements were written: the new value where there is one. -/
theorem readBuffer_commit (new m : Buffer α) (i : Nat) :
    readBuffer (commit new m) i = (readBuffer new i).or (readBuffer m i) := by
  induction new with
  | nil => simp [commit]
  | cons e new ih =>
    obtain ⟨k, u⟩ := e
    have step : commit ((k, u) :: new) m = writeBuffer (commit new m) k u := rfl
    rw [step, readBuffer_write, ih]
    by_cases h : k = i
    · simp [readBuffer, h]
    · simp [readBuffer, h, Ne.symm h]

/-- Writing new elements keeps the canonical form. -/
theorem commit_wf (new : Buffer α) {m : Buffer α} (h : BufferWf m) : BufferWf (commit new m) := by
  induction new with
  | nil => exact h
  | cons e new ih => exact writeBuffer_wf e.1 e.2 ih

/-- What `DST[j]` reads as once the completion has written what was received. -/
theorem commitDst_dstAt (s : State) (j : Nat) : s.commitDst.dstAt j = (readBuffer s.dstIn j).getD (s.dstAt j) := by
  simp only [State.commitDst, State.dstAt, readBuffer_commit]
  cases readBuffer s.dstIn j <;> simp

end Sys2Proof.Machine
end

