-- ==== Sys2Proof/Laws/State.lean ====
section
/-! SUPPORT. One lemma per field for each update that the meanings share: appending an event, leaving an item of the
pseudocode behind, putting items before it, and recording a host read. -/

namespace Sys2Proof.Machine

variable (s : State)

@[simp] theorem emit_params (e : BusEvent) : (s.emit e).params = s.params := rfl
@[simp] theorem emit_csCmd (e : BusEvent) : (s.emit e).csCmd = s.csCmd := rfl
@[simp] theorem emit_csData (e : BusEvent) : (s.emit e).csData = s.csData := rfl
@[simp] theorem emit_resetLine (e : BusEvent) : (s.emit e).resetLine = s.resetLine := rfl
@[simp] theorem emit_spiOn (e : BusEvent) : (s.emit e).spiOn = s.spiOn := rfl
@[simp] theorem emit_argReg (e : BusEvent) : (s.emit e).argReg = s.argReg := rfl
@[simp] theorem emit_argA (e : BusEvent) : (s.emit e).argA = s.argA := rfl
@[simp] theorem emit_argB (e : BusEvent) : (s.emit e).argB = s.argB := rfl
@[simp] theorem emit_bufLen (e : BusEvent) : (s.emit e).bufLen = s.bufLen := rfl
@[simp] theorem emit_result (e : BusEvent) : (s.emit e).result = s.result := rfl
@[simp] theorem emit_xcount (e : BusEvent) : (s.emit e).xcount = s.xcount := rfl
@[simp] theorem emit_errPos (e : BusEvent) : (s.emit e).errPos = s.errPos := rfl
@[simp] theorem emit_err (e : BusEvent) : (s.emit e).err = s.err := rfl
@[simp] theorem emit_initDone (e : BusEvent) : (s.emit e).initDone = s.initDone := rfl
@[simp] theorem emit_ovr (e : BusEvent) : (s.emit e).ovr = s.ovr := rfl
@[simp] theorem emit_cfg (e : BusEvent) : (s.emit e).cfg = s.cfg := rfl
@[simp] theorem emit_lastRdy (e : BusEvent) : (s.emit e).lastRdy = s.lastRdy := rfl
@[simp] theorem emit_lCmd (e : BusEvent) : (s.emit e).lCmd = s.lCmd := rfl
@[simp] theorem emit_lReg (e : BusEvent) : (s.emit e).lReg = s.lReg := rfl
@[simp] theorem emit_lA (e : BusEvent) : (s.emit e).lA = s.lA := rfl
@[simp] theorem emit_lB (e : BusEvent) : (s.emit e).lB = s.lB := rfl
@[simp] theorem emit_lLen (e : BusEvent) : (s.emit e).lLen = s.lLen := rfl
@[simp] theorem emit_todo (e : BusEvent) : (s.emit e).todo = s.todo := rfl
@[simp] theorem emit_cur (e : BusEvent) : (s.emit e).cur = s.cur := rfl
@[simp] theorem emit_recAddr (e : BusEvent) : (s.emit e).recAddr = s.recAddr := rfl
@[simp] theorem emit_recHdr (e : BusEvent) : (s.emit e).recHdr = s.recHdr := rfl
@[simp] theorem emit_recCnt (e : BusEvent) : (s.emit e).recCnt = s.recCnt := rfl
@[simp] theorem emit_recVal (e : BusEvent) : (s.emit e).recVal = s.recVal := rfl
@[simp] theorem emit_recType (e : BusEvent) : (s.emit e).recType = s.recType := rfl
@[simp] theorem emit_recLen (e : BusEvent) : (s.emit e).recLen = s.recLen := rfl
@[simp] theorem emit_hi (e : BusEvent) : (s.emit e).hi = s.hi := rfl
@[simp] theorem emit_lo (e : BusEvent) : (s.emit e).lo = s.lo := rfl
@[simp] theorem emit_rd (e : BusEvent) : (s.emit e).rd = s.rd := rfl
@[simp] theorem emit_polls (e : BusEvent) : (s.emit e).polls = s.polls := rfl
@[simp] theorem emit_xc (e : BusEvent) : (s.emit e).xc = s.xc := rfl
@[simp] theorem emit_src (e : BusEvent) : (s.emit e).src = s.src := rfl
@[simp] theorem emit_srcw (e : BusEvent) : (s.emit e).srcw = s.srcw := rfl
@[simp] theorem emit_dst (e : BusEvent) : (s.emit e).dst = s.dst := rfl
@[simp] theorem emit_dstIn (e : BusEvent) : (s.emit e).dstIn = s.dstIn := rfl
@[simp] theorem emit_srcOld (e : BusEvent) : (s.emit e).srcOld = s.srcOld := rfl
@[simp] theorem emit_srcwOld (e : BusEvent) : (s.emit e).srcwOld = s.srcwOld := rfl
@[simp] theorem emit_trace (e : BusEvent) : (s.emit e).trace = s.trace ++ [e] := rfl
@[simp] theorem emit_completions (e : BusEvent) : (s.emit e).completions = s.completions := rfl
@[simp] theorem emit_rdyIn (e : BusEvent) : (s.emit e).rdyIn = s.rdyIn := rfl
@[simp] theorem emit_rdyCount (e : BusEvent) : (s.emit e).rdyCount = s.rdyCount := rfl
@[simp] theorem emit_misoIn (e : BusEvent) : (s.emit e).misoIn = s.misoIn := rfl
@[simp] theorem emit_misoCount (e : BusEvent) : (s.emit e).misoCount = s.misoCount := rfl
@[simp] theorem emit_freeCount (e : BusEvent) : (s.emit e).freeCount = s.freeCount := rfl
@[simp] theorem emit_agenda (e : BusEvent) : (s.emit e).agenda = s.agenda := rfl
@[simp] theorem emit_grant (e : BusEvent) : (s.emit e).grant = s.grant := rfl
@[simp] theorem emit_reads (e : BusEvent) : (s.emit e).reads = s.reads := rfl

@[simp] theorem pop_params : (s.pop).params = s.params := rfl
@[simp] theorem pop_csCmd : (s.pop).csCmd = s.csCmd := rfl
@[simp] theorem pop_csData : (s.pop).csData = s.csData := rfl
@[simp] theorem pop_resetLine : (s.pop).resetLine = s.resetLine := rfl
@[simp] theorem pop_spiOn : (s.pop).spiOn = s.spiOn := rfl
@[simp] theorem pop_argReg : (s.pop).argReg = s.argReg := rfl
@[simp] theorem pop_argA : (s.pop).argA = s.argA := rfl
@[simp] theorem pop_argB : (s.pop).argB = s.argB := rfl
@[simp] theorem pop_bufLen : (s.pop).bufLen = s.bufLen := rfl
@[simp] theorem pop_result : (s.pop).result = s.result := rfl
@[simp] theorem pop_xcount : (s.pop).xcount = s.xcount := rfl
@[simp] theorem pop_errPos : (s.pop).errPos = s.errPos := rfl
@[simp] theorem pop_err : (s.pop).err = s.err := rfl
@[simp] theorem pop_initDone : (s.pop).initDone = s.initDone := rfl
@[simp] theorem pop_ovr : (s.pop).ovr = s.ovr := rfl
@[simp] theorem pop_cfg : (s.pop).cfg = s.cfg := rfl
@[simp] theorem pop_lastRdy : (s.pop).lastRdy = s.lastRdy := rfl
@[simp] theorem pop_lCmd : (s.pop).lCmd = s.lCmd := rfl
@[simp] theorem pop_lReg : (s.pop).lReg = s.lReg := rfl
@[simp] theorem pop_lA : (s.pop).lA = s.lA := rfl
@[simp] theorem pop_lB : (s.pop).lB = s.lB := rfl
@[simp] theorem pop_lLen : (s.pop).lLen = s.lLen := rfl
@[simp] theorem pop_todo : (s.pop).todo = s.todo.tail := rfl
@[simp] theorem pop_cur : (s.pop).cur = s.cur := rfl
@[simp] theorem pop_recAddr : (s.pop).recAddr = s.recAddr := rfl
@[simp] theorem pop_recHdr : (s.pop).recHdr = s.recHdr := rfl
@[simp] theorem pop_recCnt : (s.pop).recCnt = s.recCnt := rfl
@[simp] theorem pop_recVal : (s.pop).recVal = s.recVal := rfl
@[simp] theorem pop_recType : (s.pop).recType = s.recType := rfl
@[simp] theorem pop_recLen : (s.pop).recLen = s.recLen := rfl
@[simp] theorem pop_hi : (s.pop).hi = s.hi := rfl
@[simp] theorem pop_lo : (s.pop).lo = s.lo := rfl
@[simp] theorem pop_rd : (s.pop).rd = s.rd := rfl
@[simp] theorem pop_polls : (s.pop).polls = s.polls := rfl
@[simp] theorem pop_xc : (s.pop).xc = s.xc := rfl
@[simp] theorem pop_src : (s.pop).src = s.src := rfl
@[simp] theorem pop_srcw : (s.pop).srcw = s.srcw := rfl
@[simp] theorem pop_dst : (s.pop).dst = s.dst := rfl
@[simp] theorem pop_dstIn : (s.pop).dstIn = s.dstIn := rfl
@[simp] theorem pop_srcOld : (s.pop).srcOld = s.srcOld := rfl
@[simp] theorem pop_srcwOld : (s.pop).srcwOld = s.srcwOld := rfl
@[simp] theorem pop_trace : (s.pop).trace = s.trace := rfl
@[simp] theorem pop_completions : (s.pop).completions = s.completions := rfl
@[simp] theorem pop_rdyIn : (s.pop).rdyIn = s.rdyIn := rfl
@[simp] theorem pop_rdyCount : (s.pop).rdyCount = s.rdyCount := rfl
@[simp] theorem pop_misoIn : (s.pop).misoIn = s.misoIn := rfl
@[simp] theorem pop_misoCount : (s.pop).misoCount = s.misoCount := rfl
@[simp] theorem pop_freeCount : (s.pop).freeCount = s.freeCount := rfl
@[simp] theorem pop_agenda : (s.pop).agenda = s.agenda := rfl
@[simp] theorem pop_grant : (s.pop).grant = s.grant := rfl
@[simp] theorem pop_reads : (s.pop).reads = s.reads := rfl

@[simp] theorem push_params (ms : List Micro) : (s.push ms).params = s.params := rfl
@[simp] theorem push_csCmd (ms : List Micro) : (s.push ms).csCmd = s.csCmd := rfl
@[simp] theorem push_csData (ms : List Micro) : (s.push ms).csData = s.csData := rfl
@[simp] theorem push_resetLine (ms : List Micro) : (s.push ms).resetLine = s.resetLine := rfl
@[simp] theorem push_spiOn (ms : List Micro) : (s.push ms).spiOn = s.spiOn := rfl
@[simp] theorem push_argReg (ms : List Micro) : (s.push ms).argReg = s.argReg := rfl
@[simp] theorem push_argA (ms : List Micro) : (s.push ms).argA = s.argA := rfl
@[simp] theorem push_argB (ms : List Micro) : (s.push ms).argB = s.argB := rfl
@[simp] theorem push_bufLen (ms : List Micro) : (s.push ms).bufLen = s.bufLen := rfl
@[simp] theorem push_result (ms : List Micro) : (s.push ms).result = s.result := rfl
@[simp] theorem push_xcount (ms : List Micro) : (s.push ms).xcount = s.xcount := rfl
@[simp] theorem push_errPos (ms : List Micro) : (s.push ms).errPos = s.errPos := rfl
@[simp] theorem push_err (ms : List Micro) : (s.push ms).err = s.err := rfl
@[simp] theorem push_initDone (ms : List Micro) : (s.push ms).initDone = s.initDone := rfl
@[simp] theorem push_ovr (ms : List Micro) : (s.push ms).ovr = s.ovr := rfl
@[simp] theorem push_cfg (ms : List Micro) : (s.push ms).cfg = s.cfg := rfl
@[simp] theorem push_lastRdy (ms : List Micro) : (s.push ms).lastRdy = s.lastRdy := rfl
@[simp] theorem push_lCmd (ms : List Micro) : (s.push ms).lCmd = s.lCmd := rfl
@[simp] theorem push_lReg (ms : List Micro) : (s.push ms).lReg = s.lReg := rfl
@[simp] theorem push_lA (ms : List Micro) : (s.push ms).lA = s.lA := rfl
@[simp] theorem push_lB (ms : List Micro) : (s.push ms).lB = s.lB := rfl
@[simp] theorem push_lLen (ms : List Micro) : (s.push ms).lLen = s.lLen := rfl
@[simp] theorem push_todo (ms : List Micro) : (s.push ms).todo = ms ++ s.todo := rfl
@[simp] theorem push_cur (ms : List Micro) : (s.push ms).cur = s.cur := rfl
@[simp] theorem push_recAddr (ms : List Micro) : (s.push ms).recAddr = s.recAddr := rfl
@[simp] theorem push_recHdr (ms : List Micro) : (s.push ms).recHdr = s.recHdr := rfl
@[simp] theorem push_recCnt (ms : List Micro) : (s.push ms).recCnt = s.recCnt := rfl
@[simp] theorem push_recVal (ms : List Micro) : (s.push ms).recVal = s.recVal := rfl
@[simp] theorem push_recType (ms : List Micro) : (s.push ms).recType = s.recType := rfl
@[simp] theorem push_recLen (ms : List Micro) : (s.push ms).recLen = s.recLen := rfl
@[simp] theorem push_hi (ms : List Micro) : (s.push ms).hi = s.hi := rfl
@[simp] theorem push_lo (ms : List Micro) : (s.push ms).lo = s.lo := rfl
@[simp] theorem push_rd (ms : List Micro) : (s.push ms).rd = s.rd := rfl
@[simp] theorem push_polls (ms : List Micro) : (s.push ms).polls = s.polls := rfl
@[simp] theorem push_xc (ms : List Micro) : (s.push ms).xc = s.xc := rfl
@[simp] theorem push_src (ms : List Micro) : (s.push ms).src = s.src := rfl
@[simp] theorem push_srcw (ms : List Micro) : (s.push ms).srcw = s.srcw := rfl
@[simp] theorem push_dst (ms : List Micro) : (s.push ms).dst = s.dst := rfl
@[simp] theorem push_dstIn (ms : List Micro) : (s.push ms).dstIn = s.dstIn := rfl
@[simp] theorem push_srcOld (ms : List Micro) : (s.push ms).srcOld = s.srcOld := rfl
@[simp] theorem push_srcwOld (ms : List Micro) : (s.push ms).srcwOld = s.srcwOld := rfl
@[simp] theorem push_trace (ms : List Micro) : (s.push ms).trace = s.trace := rfl
@[simp] theorem push_completions (ms : List Micro) : (s.push ms).completions = s.completions := rfl
@[simp] theorem push_rdyIn (ms : List Micro) : (s.push ms).rdyIn = s.rdyIn := rfl
@[simp] theorem push_rdyCount (ms : List Micro) : (s.push ms).rdyCount = s.rdyCount := rfl
@[simp] theorem push_misoIn (ms : List Micro) : (s.push ms).misoIn = s.misoIn := rfl
@[simp] theorem push_misoCount (ms : List Micro) : (s.push ms).misoCount = s.misoCount := rfl
@[simp] theorem push_freeCount (ms : List Micro) : (s.push ms).freeCount = s.freeCount := rfl
@[simp] theorem push_agenda (ms : List Micro) : (s.push ms).agenda = s.agenda := rfl
@[simp] theorem push_grant (ms : List Micro) : (s.push ms).grant = s.grant := rfl
@[simp] theorem push_reads (ms : List Micro) : (s.push ms).reads = s.reads := rfl

@[simp] theorem logRead_params (v : Long) : (s.logRead v).params = s.params := rfl
@[simp] theorem logRead_csCmd (v : Long) : (s.logRead v).csCmd = s.csCmd := rfl
@[simp] theorem logRead_csData (v : Long) : (s.logRead v).csData = s.csData := rfl
@[simp] theorem logRead_resetLine (v : Long) : (s.logRead v).resetLine = s.resetLine := rfl
@[simp] theorem logRead_spiOn (v : Long) : (s.logRead v).spiOn = s.spiOn := rfl
@[simp] theorem logRead_argReg (v : Long) : (s.logRead v).argReg = s.argReg := rfl
@[simp] theorem logRead_argA (v : Long) : (s.logRead v).argA = s.argA := rfl
@[simp] theorem logRead_argB (v : Long) : (s.logRead v).argB = s.argB := rfl
@[simp] theorem logRead_bufLen (v : Long) : (s.logRead v).bufLen = s.bufLen := rfl
@[simp] theorem logRead_result (v : Long) : (s.logRead v).result = s.result := rfl
@[simp] theorem logRead_xcount (v : Long) : (s.logRead v).xcount = s.xcount := rfl
@[simp] theorem logRead_errPos (v : Long) : (s.logRead v).errPos = s.errPos := rfl
@[simp] theorem logRead_err (v : Long) : (s.logRead v).err = s.err := rfl
@[simp] theorem logRead_initDone (v : Long) : (s.logRead v).initDone = s.initDone := rfl
@[simp] theorem logRead_ovr (v : Long) : (s.logRead v).ovr = s.ovr := rfl
@[simp] theorem logRead_cfg (v : Long) : (s.logRead v).cfg = s.cfg := rfl
@[simp] theorem logRead_lastRdy (v : Long) : (s.logRead v).lastRdy = s.lastRdy := rfl
@[simp] theorem logRead_lCmd (v : Long) : (s.logRead v).lCmd = s.lCmd := rfl
@[simp] theorem logRead_lReg (v : Long) : (s.logRead v).lReg = s.lReg := rfl
@[simp] theorem logRead_lA (v : Long) : (s.logRead v).lA = s.lA := rfl
@[simp] theorem logRead_lB (v : Long) : (s.logRead v).lB = s.lB := rfl
@[simp] theorem logRead_lLen (v : Long) : (s.logRead v).lLen = s.lLen := rfl
@[simp] theorem logRead_todo (v : Long) : (s.logRead v).todo = s.todo := rfl
@[simp] theorem logRead_cur (v : Long) : (s.logRead v).cur = s.cur := rfl
@[simp] theorem logRead_recAddr (v : Long) : (s.logRead v).recAddr = s.recAddr := rfl
@[simp] theorem logRead_recHdr (v : Long) : (s.logRead v).recHdr = s.recHdr := rfl
@[simp] theorem logRead_recCnt (v : Long) : (s.logRead v).recCnt = s.recCnt := rfl
@[simp] theorem logRead_recVal (v : Long) : (s.logRead v).recVal = s.recVal := rfl
@[simp] theorem logRead_recType (v : Long) : (s.logRead v).recType = s.recType := rfl
@[simp] theorem logRead_recLen (v : Long) : (s.logRead v).recLen = s.recLen := rfl
@[simp] theorem logRead_hi (v : Long) : (s.logRead v).hi = s.hi := rfl
@[simp] theorem logRead_lo (v : Long) : (s.logRead v).lo = s.lo := rfl
@[simp] theorem logRead_rd (v : Long) : (s.logRead v).rd = s.rd := rfl
@[simp] theorem logRead_polls (v : Long) : (s.logRead v).polls = s.polls := rfl
@[simp] theorem logRead_xc (v : Long) : (s.logRead v).xc = s.xc := rfl
@[simp] theorem logRead_src (v : Long) : (s.logRead v).src = s.src := rfl
@[simp] theorem logRead_srcw (v : Long) : (s.logRead v).srcw = s.srcw := rfl
@[simp] theorem logRead_dst (v : Long) : (s.logRead v).dst = s.dst := rfl
@[simp] theorem logRead_dstIn (v : Long) : (s.logRead v).dstIn = s.dstIn := rfl
@[simp] theorem logRead_srcOld (v : Long) : (s.logRead v).srcOld = s.srcOld := rfl
@[simp] theorem logRead_srcwOld (v : Long) : (s.logRead v).srcwOld = s.srcwOld := rfl
@[simp] theorem logRead_trace (v : Long) : (s.logRead v).trace = s.trace := rfl
@[simp] theorem logRead_completions (v : Long) : (s.logRead v).completions = s.completions := rfl
@[simp] theorem logRead_rdyIn (v : Long) : (s.logRead v).rdyIn = s.rdyIn := rfl
@[simp] theorem logRead_rdyCount (v : Long) : (s.logRead v).rdyCount = s.rdyCount := rfl
@[simp] theorem logRead_misoIn (v : Long) : (s.logRead v).misoIn = s.misoIn := rfl
@[simp] theorem logRead_misoCount (v : Long) : (s.logRead v).misoCount = s.misoCount := rfl
@[simp] theorem logRead_freeCount (v : Long) : (s.logRead v).freeCount = s.freeCount := rfl
@[simp] theorem logRead_agenda (v : Long) : (s.logRead v).agenda = s.agenda := rfl
@[simp] theorem logRead_grant (v : Long) : (s.logRead v).grant = s.grant := rfl
@[simp] theorem logRead_reads (v : Long) : (s.logRead v).reads = s.reads ++ [v] := rfl

end Sys2Proof.Machine
end

