-- ==== Sys2Proof/Laws/Ops.lean ====
section
/-! SUPPORT. For each shared operation, once, everything it does. -/

namespace Sys2Proof.Machine

variable (s : State)

/-- The READY answers after one sample are the ones from the next on. -/
theorem sampleReady_readyAt (k : Nat) : (sampleReady s).2.readyAt k = s.readyAt (k + 1) := by
  simp only [sampleReady, State.readyAt, List.getElem?_tail]
  congr 2; omega

/-- The chip's bytes after one transfer are the ones from the next on. -/
theorem transfer_misoAt (b : Byte) (k : Nat) : (transfer b s).2.misoAt k = s.misoAt (k + 1) := by
  simp only [transfer, State.misoAt, List.getElem?_tail]
  congr 2; omega

/-- A sample of READY returns the chip's next answer, keeps it in LAST_RDY and appends its event; nothing else changes. -/
theorem sampleReady_eq : sampleReady s =
    (s.readyAt 0, { s with rdyIn := s.rdyIn.tail, rdyCount := s.rdyCount + 1, lastRdy := s.readyAt 0,
                           trace := s.trace ++ [.rdy (s.readyAt 0)] }) := rfl

/-- A transfer returns the chip's next byte and appends its event; nothing else changes. -/
theorem transfer_eq (b : Byte) : transfer b s =
    (s.misoAt 0, { s with misoIn := s.misoIn.tail, misoCount := s.misoCount + 1,
                          trace := s.trace ++ [.xfer b (s.misoAt 0)] }) := rfl

@[simp] theorem sampleReady_fst : (sampleReady s).1 = s.readyAt 0 := rfl

@[simp] theorem sampleReady_params : (sampleReady s).2.params = s.params := rfl

@[simp] theorem sampleReady_polls : (sampleReady s).2.polls = s.polls := rfl

/-- What the polling loop of a gate does with one sample: it returns, or counts the sample next. -/
theorem gateStep_cases :
    (s.readyAt 0 = true ∧ gateStep s = (sampleReady s).2.pop) ∨
    (s.readyAt 0 = false ∧ gateStep s = (sampleReady s).2.push [.polled]) := by
  rcases h : s.readyAt 0 with _ | _ <;> simp [gateStep, h]

/-- What the count of a low sample does: it raises TIMEOUT at the limit, or the gate goes on. -/
theorem pollStep_cases :
    ((∃ n, s.params.readyTimeout = some n ∧ n ≤ s.polls + 1) ∧
      pollStep s = raise .timeout s.posNow { s.pop with polls := s.polls + 1 }) ∨
    ((∀ n, s.params.readyTimeout = some n → s.polls + 1 < n) ∧ pollStep s = { s.pop with polls := s.polls + 1 }) := by
  rcases ht : s.params.readyTimeout with _ | n
  · exact .inr ⟨by simp, by simp [pollStep, ht]⟩
  · by_cases hn : n ≤ s.polls + 1
    · exact .inl ⟨⟨n, rfl, hn⟩, by simp [pollStep, ht, hn, State.posNow]⟩
    · exact .inr ⟨fun m hm => by cases hm; omega, by simp [pollStep, ht, hn]⟩

/-- The completion step leaves everything but the completion registers, the pseudocode, the bytes not yet in `DST`, the marks of
raced elements and the completion list. -/
theorem finish_frame (e : ErrCode) (pos : Nat) (r : Option Half) (c : Option Nat) :
    finish e pos r c s =
      { s with err := e, errPos := BitVec.ofNat 32 pos, result := r.getD s.result,
               xcount := (finish e pos r c s).xcount, todo := [], dstIn := [], srcOld := [], srcwOld := [],
               completions := (finish e pos r c s).completions } := rfl

/-- Error entry is the completion step, for STREAM_READ on the state in which `DST` holds the bytes received so far. -/
theorem raise_cases (e : ErrCode) (pos : Nat) :
    (s.lCmd = 0x05 ∧ raise e pos s = finish e pos none (some s.xc) s.commitDst) ∨
    (s.lCmd ≠ 0x05 ∧ raise e pos s = finish e pos none (if countsTransfers s.lCmd then some s.xc else none) s) := by
  by_cases h : s.lCmd = 0x05
  · exact .inl ⟨h, by simp [raise, h, countsTransfers, State.commitDst]⟩
  · have hd : (s.lCmd == 0x05) = false := by simpa using h
    exact .inr ⟨h, by simp only [raise, hd, Bool.false_eq_true, if_false]⟩

@[simp] theorem finish_todo (e : ErrCode) (pos : Nat) (r : Option Half) (c : Option Nat) :
    (finish e pos r c s).todo = [] := rfl

@[simp] theorem raise_todo (e : ErrCode) (pos : Nat) : (raise e pos s).todo = [] := rfl

@[simp] theorem complete_todo (w : Written) : (complete w s).todo = [] := by cases w <;> rfl

/-- A command is refused before INIT, and runs after it. -/
theorem whenInitialized_cases (k : State → State) :
    (s.initDone = true ∧ whenInitialized s k = k s) ∨
    (s.initDone = false ∧ whenInitialized s k = raise .notInitialized 0 s) := by
  unfold whenInitialized
  rcases h : s.initDone with _ | _ <;> simp

/-- A buffer operand that does not fit is refused. -/
theorem whenFits_cases (cap : Nat) (k : State → State) :
    (s.len ≤ cap ∧ whenFits cap s k = k s) ∨
    (cap < s.len ∧ whenFits cap s k = raise .invalidArgument 0 s) := by
  unfold whenFits
  by_cases h : cap < s.len
  · exact .inr ⟨h, by simp [h]⟩
  · exact .inl ⟨by omega, by simp [h]⟩

/-- A read of a source element changes nothing but the count of free values used. -/
theorem srcByte_frame (i : Nat) : ∃ n, (srcByte i s).2 = { s with freeCount := n } := by
  unfold srcByte
  split
  · exact ⟨s.freeCount, rfl⟩
  · exact ⟨s.freeCount + 1, rfl⟩

theorem srcWord_frame (i : Nat) : ∃ n, (srcWord i s).2 = { s with freeCount := n } := by
  unfold srcWord
  split
  · exact ⟨s.freeCount, rfl⟩
  · exact ⟨s.freeCount + 1, rfl⟩

/-- A read of an element that no write raced returns its value and changes nothing. -/
theorem srcByte_stable (i : Nat) (h : s.srcOld = []) : srcByte i s = (s.srcAt i, s) := by
  simp [srcByte, oldValues, h]

theorem srcWord_stable (i : Nat) (h : s.srcwOld = []) : srcWord i s = (s.srcwAt i, s) := by
  simp [srcWord, oldValues, h]

/-- A host access ends in a next state or in the one fault. -/
theorem hostAccess_cases (a : HostAct) :
    (∃ t, hostAccess a s = .next t) ∨ hostAccess a s = .fault .bufferIndex := by
  have cases_if (c : Prop) [Decidable c] (t : State) :
      (∃ u, (if c then Host.Outcome.next t else .fault .bufferIndex : Host.Outcome State Fault Refusal) = .next u) ∨
      (if c then Host.Outcome.next t else .fault .bufferIndex : Host.Outcome State Fault Refusal) =
        .fault .bufferIndex := by
    by_cases h : c <;> simp [h]
  cases a
  case write => exact .inl ⟨_, rfl⟩
  case read => exact .inl ⟨_, rfl⟩
  all_goals exact cases_if _ _

end Sys2Proof.Machine
end

