-- ==== Sys2Proof/Laws/Engine.lean ====
section
/-! SUPPORT. The engine: one equation for each item of the pseudocode, and how turns compose. -/

namespace Sys2Proof.Machine

variable {s : State} {r : List Micro}

@[simp] theorem busy_iff : s.busy = true ↔ s.todo ≠ [] := by
  unfold State.busy
  cases s.todo <;> simp

@[simp] theorem runEngine_zero : runEngine 0 s = s := rfl

theorem runEngine_idle (n : Nat) (h : s.todo = []) : runEngine n s = s := by
  cases n with
  | zero => rfl
  | succ n => simp [runEngine, State.busy, h]

/-- One engine step of a running command. -/
theorem runEngine_succ (n : Nat) (h : s.todo ≠ []) : runEngine (n + 1) s = runEngine n (engineStep s) := by
  simp [runEngine, busy_iff.2 h]

/-- `m + n` engine steps are `m` and then `n`. -/
theorem runEngine_add (m n : Nat) (s : State) : runEngine (m + n) s = runEngine n (runEngine m s) := by
  induction m generalizing s with
  | zero => simp
  | succ m ih =>
    by_cases h : s.todo = []
    · rw [runEngine_idle _ h, runEngine_idle _ h, runEngine_idle _ h]
    · rw [Nat.add_right_comm, runEngine_succ _ h, runEngine_succ _ h, ih]

/-- Every meaning is the instruction's first engine step and what is left of the turn. -/
theorem exec_eq (i : Instr) (s : State) : exec i s = .next (runEngine (startOf i s).grant (startOf i s)) := by
  cases i <;> rfl

theorem engineStep_idle (h : s.todo = []) : engineStep s = s := by simp [engineStep, h]

theorem engineStep_command (h : s.todo = .command :: r) :
    engineStep s = startOf (decodeCommand s.lCmd) s.pop := by
  simp [engineStep, h, meet, metOf, decode]

theorem engineStep_writeFrame {reg : Byte} {v : Half} (h : s.todo = .writeFrame reg v :: r) :
    engineStep s = startSciW reg v s.pop := by
  simp [engineStep, h, meet, metOf, decode, decodeWire, startOf]

theorem engineStep_readFrame {reg : Byte} (h : s.todo = .readFrame reg :: r) :
    engineStep s = startSciR reg s.pop := by
  simp [engineStep, h, meet, metOf, decode, decodeWire, startOf]

theorem engineStep_sendByte {b : Byte} (h : s.todo = .sendByte b :: r) :
    engineStep s = startSdiWriteByte b s.pop := by
  simp [engineStep, h, meet, metOf, decode, startOf]

theorem engineStep_receiveByte (h : s.todo = .receiveByte :: r) : engineStep s = startSdiReadByte s.pop := by
  simp [engineStep, h, meet, metOf, decode, decodeStreamIn, startOf]

theorem engineStep_fetchByte (h : s.todo = .fetchByte :: r) : engineStep s = fetchStep s := by
  simp [engineStep, h, meet, microStep]

theorem engineStep_storeByte {b : Byte} (h : s.todo = .storeByte b :: r) :
    engineStep s = storeDst s.xc b { s.pop with xc := s.xc + 1 } := by
  simp [engineStep, h, meet, microStep]

theorem engineStep_polled (h : s.todo = .polled :: r) : engineStep s = pollStep s := by
  simp [engineStep, h, meet, microStep]

theorem engineStep_pluginRecord (h : s.todo = .pluginRecord :: r) : engineStep s = pluginStep s := by
  simp [engineStep, h, meet, microStep]

theorem engineStep_appRecord (h : s.todo = .appRecord :: r) : engineStep s = appRecordStep s := by
  simp [engineStep, h, meet, microStep]

/-- A plugin record's next fixed word is read, or the record is decoded. -/
theorem engineStep_pluginWords {got : List Half} (h : s.todo = .pluginWords got :: r) :
    (s.pluginWhole got = false ∧ engineStep s = pluginWordStep got s) ∨
    (s.pluginWhole got = true ∧
      ((∃ i, decodePlugin got = .ok i ∧ engineStep s = startOf i s.pop) ∨
       (∃ e, decodePlugin got = .error e ∧ engineStep s = raise .outOfBounds s.cur s))) := by
  rcases hw : s.pluginWhole got with _ | _
  · simp [engineStep, h, meet, hw, microStep]
  · cases hd : decodePlugin got <;> simp [engineStep, h, meet, hw, metOf, decode, hd]

/-- An application record's next header byte is read, or the record is decoded. -/
theorem engineStep_appBytes {got : List Byte} (h : s.todo = .appBytes got :: r) :
    (s.appWhole got = false ∧ engineStep s = appByteStep got s) ∨
    (s.appWhole got = true ∧
      ((∃ i, decodeApp got = .ok i ∧ engineStep s = startOf i s.pop) ∨
       (∃ e, decodeApp got = .error e ∧ engineStep s = raise .outOfBounds s.cur s))) := by
  rcases hw : s.appWhole got with _ | _
  · simp [engineStep, h, meet, hw, microStep]
  · cases hd : decodeApp got <;> simp [engineStep, h, meet, hw, metOf, decode, hd]

/-- The marker's next byte is read, or the marker is checked. -/
theorem engineStep_magicBytes {got : List Byte} (h : s.todo = .magicBytes got :: r) :
    (got.length < 3 ∧ engineStep s = magicStep got s) ∨
    (3 ≤ got.length ∧
      ((∃ i, decodeMagic got = .ok i ∧ engineStep s = startOf i s.pop) ∨
       (∃ e, decodeMagic got = .error e ∧ engineStep s = raise .invalidFormat 0 s))) := by
  rcases Nat.lt_or_ge got.length 3 with hl | hl
  · simp [engineStep, h, meet, hl, microStep]
  · have hn : ¬ got.length < 3 := by omega
    cases hd : decodeMagic got <;> simp [engineStep, h, meet, hn, hl, metOf, decode, hd]

theorem engineStep_gate (h : s.todo = .gate :: r) : engineStep s = gateStep s := by
  simp [engineStep, h, meet, microStep]

theorem engineStep_sel {l : Line} {v : Bool} (h : s.todo = .sel l v :: r) :
    engineStep s = driveSelect l v s.pop := by
  simp [engineStep, h, meet, microStep]

theorem engineStep_xfer {b : Byte} {d : Dest} (h : s.todo = .xfer b d :: r) :
    engineStep s = keepByte d (transfer b s.pop).1 (transfer b s.pop).2 := by
  simp [engineStep, h, meet, microStep]

theorem engineStep_stream {d : Dir} (h : s.todo = .stream d :: r) : engineStep s = streamStep d s := by
  simp [engineStep, h, meet, microStep]

theorem engineStep_cfgPins (h : s.todo = .cfgPins :: r) : engineStep s = configurePins s.pop := by
  simp [engineStep, h, meet, microStep]

theorem engineStep_cfgSpi (h : s.todo = .cfgSpi :: r) : engineStep s = configureSpi s.pop := by
  simp [engineStep, h, meet, microStep]

theorem engineStep_setInitDone (h : s.todo = .setInitDone :: r) :
    engineStep s = { s.pop with initDone := true, cfg := true } := by
  simp [engineStep, h, meet, microStep]

theorem engineStep_setReset {a : ResetDrive} (h : s.todo = .setReset a :: r) :
    engineStep s = driveReset a s.pop := by
  simp [engineStep, h, meet, microStep]

theorem engineStep_delay {ms : Nat} (h : s.todo = .delay ms :: r) : engineStep s = delayFor ms s.pop := by
  simp [engineStep, h, meet, microStep]

theorem engineStep_modify {op : Rmw} (h : s.todo = .modify op :: r) :
    engineStep s =
      { s.pop with rd := s.readBack }.push [.writeFrame s.regOperand (op.apply s.readBack s.valueOperand)] := by
  simp [engineStep, h, meet, microStep]

theorem engineStep_rleData {j : Nat} (h : s.todo = .rleData j :: r) : engineStep s = rleStep j s := by
  simp [engineStep, h, meet, microStep]

theorem engineStep_litData {j : Nat} (h : s.todo = .litData j :: r) : engineStep s = litStep j s := by
  simp [engineStep, h, meet, microStep]

theorem engineStep_appData {j : Nat} (h : s.todo = .appData j :: r) : engineStep s = appStep j s := by
  simp [engineStep, h, meet, microStep]

theorem engineStep_appLow {j : Nat} {b : Byte} (h : s.todo = .appLow j b :: r) : engineStep s = appLowStep j b s := by
  simp [engineStep, h, meet, microStep]

theorem engineStep_countData (h : s.todo = .countData :: r) : engineStep s = { s.pop with xc := s.xc + 1 } := by
  simp [engineStep, h, meet, microStep]

theorem engineStep_advance {n : Nat} (h : s.todo = .advance n :: r) :
    engineStep s = { s.pop with cur := s.cur + n } := by
  simp [engineStep, h, meet, microStep]

theorem engineStep_complete {w : Written} (h : s.todo = .complete w :: r) : engineStep s = complete w s := by
  simp [engineStep, h, meet, microStep]

end Sys2Proof.Machine
end

