-- ==== Sys2Proof/Laws/PerInstr.lean ====
section
/-! SUPPORT. The length of each object's encoding (spec/30_encoding.md R90): one lemma per constructor. -/

namespace Sys2Proof

/-- The units of an encoded object: bytes, or words for a plugin record. -/
def Encoded.length : Encoded → Nat
  | .command _ | .streamOut _ | .streamIn _ => 1
  | .wire bytes | .magic bytes | .app bytes => bytes.length
  | .plugin words => words.length

/-- R90: the fixed part of each format; of a type byte above 3, the type alone (R106). -/
def Instr.fixedLength : Instr → Nat
  | .sciW _ _ | .sciR _ => 4
  | .pluginLit _ _ => 2
  | .pluginRle _ _ _ | .appMagic => 3
  | .appDataT0 _ _ | .appDataT1 _ _ | .appDataT2 _ _ | .appExec _ _ => 5
  | _ => 1

namespace Laws.EncodedLength

/-- The encoding of an instruction has the length R90 gives its format. -/
def Statement (i : Instr) : Prop := (encode i).length = i.fixedLength

theorem waitReady : Statement (.waitReady) := rfl
theorem ctrlWrite : Statement (.ctrlWrite) := rfl
theorem ctrlRead : Statement (.ctrlRead) := rfl
theorem streamWrite : Statement (.streamWrite) := rfl
theorem streamRead : Statement (.streamRead) := rfl
theorem ramWrite : Statement (.ramWrite) := rfl
theorem ramRead : Statement (.ramRead) := rfl
theorem regSetBits : Statement (.regSetBits) := rfl
theorem regClearBits : Statement (.regClearBits) := rfl
theorem loadPlugin : Statement (.loadPlugin) := rfl
theorem loadApp : Statement (.loadApp) := rfl
theorem init : Statement (.init) := rfl
theorem hardReset : Statement (.hardReset) := rfl
theorem illegal00 : Statement (.illegal00) := rfl
theorem illegal0E : Statement (.illegal0E) := rfl
theorem illegal0F : Statement (.illegal0F) := rfl
theorem illegalHigh80 (w : Byte) : Statement (.illegalHigh80 w) := rfl
theorem illegalHigh40 (w : Byte) : Statement (.illegalHigh40 w) := rfl
theorem illegalHigh20 (w : Byte) : Statement (.illegalHigh20 w) := rfl
theorem illegalHigh10 (w : Byte) : Statement (.illegalHigh10 w) := rfl
theorem sciW (reg : Byte) (v : Half) : Statement (.sciW reg v) := rfl
theorem sciR (reg : Byte) : Statement (.sciR reg) := rfl
theorem sdiWriteByte (b : Byte) : Statement (.sdiWriteByte b) := rfl
theorem sdiReadByte : Statement (.sdiReadByte) := rfl
theorem pluginLit (addr : Half) (count : BitVec 15) : Statement (.pluginLit addr count) := rfl
theorem pluginRle (addr : Half) (count : BitVec 15) (value : Half) : Statement (.pluginRle addr count value) := rfl
theorem appMagic : Statement (.appMagic) := rfl
theorem appDataT0 (len addr : Half) : Statement (.appDataT0 len addr) := rfl
theorem appDataT1 (len addr : Half) : Statement (.appDataT1 len addr) := rfl
theorem appDataT2 (len addr : Half) : Statement (.appDataT2 len addr) := rfl
theorem appExec (len addr : Half) : Statement (.appExec len addr) := rfl
theorem appTypeIllegal04 (t : Byte) : Statement (.appTypeIllegal04 t) := rfl
theorem appTypeIllegal08 (t : Byte) : Statement (.appTypeIllegal08 t) := rfl
theorem appTypeIllegal10 (t : Byte) : Statement (.appTypeIllegal10 t) := rfl
theorem appTypeIllegal20 (t : Byte) : Statement (.appTypeIllegal20 t) := rfl
theorem appTypeIllegal40 (t : Byte) : Statement (.appTypeIllegal40 t) := rfl
theorem appTypeIllegal80 (t : Byte) : Statement (.appTypeIllegal80 t) := rfl

end Laws.EncodedLength

end Sys2Proof
end

