-- ==== Sys2Proof/Tests/Slice0.lean ====
section
/-! SUPPORT. The model's own tests: ill-formed terms that WellFormed refuses, words written out from the encoding tables
of spec/30_encoding.md, vectors of spec/95_test_vectors.md (each named), and for every statement with hypotheses a
state that meets them. -/

namespace Sys2Proof.Tests

open Sys2Proof Sys2Proof.Machine

/-! ### WellFormed refuses a byte outside its row (R92, R104) -/

theorem test_wf_high80 : (Instr.illegalHigh80 0x7F).wellFormed = false := by decide
theorem test_wf_high40 : (Instr.illegalHigh40 0xC0).wellFormed = false := by decide
theorem test_wf_high20 : (Instr.illegalHigh20 0x1F).wellFormed = false := by decide
theorem test_wf_high10 : (Instr.illegalHigh10 0x0F).wellFormed = false := by decide
theorem test_wf_type04 : (Instr.appTypeIllegal04 0x03).wellFormed = false := by decide
theorem test_wf_type08 : (Instr.appTypeIllegal08 0x07).wellFormed = false := by decide
theorem test_wf_type10 : (Instr.appTypeIllegal10 0x20).wellFormed = false := by decide
theorem test_wf_type20 : (Instr.appTypeIllegal20 0x40).wellFormed = false := by decide
theorem test_wf_type40 : (Instr.appTypeIllegal40 0x80).wellFormed = false := by decide
theorem test_wf_type80 : (Instr.appTypeIllegal80 0x7F).wellFormed = false := by decide

/-! ### Decoding: every constructor from a word written out from the tables (R91, R92, R94-R104) -/

theorem test_decode_waitReady : decode (.command 0b00000001) = .ok .waitReady := by decide
theorem test_decode_ctrlWrite : decode (.command 0b00000010) = .ok .ctrlWrite := by decide
theorem test_decode_ctrlRead : decode (.command 0b00000011) = .ok .ctrlRead := by decide
theorem test_decode_streamWrite : decode (.command 0b00000100) = .ok .streamWrite := by decide
theorem test_decode_streamRead : decode (.command 0b00000101) = .ok .streamRead := by decide
theorem test_decode_ramWrite : decode (.command 0b00000110) = .ok .ramWrite := by decide
theorem test_decode_ramRead : decode (.command 0b00000111) = .ok .ramRead := by decide
theorem test_decode_regSetBits : decode (.command 0b00001000) = .ok .regSetBits := by decide
theorem test_decode_regClearBits : decode (.command 0b00001001) = .ok .regClearBits := by decide
theorem test_decode_loadPlugin : decode (.command 0b00001010) = .ok .loadPlugin := by decide
theorem test_decode_loadApp : decode (.command 0b00001011) = .ok .loadApp := by decide
theorem test_decode_init : decode (.command 0b00001100) = .ok .init := by decide
theorem test_decode_hardReset : decode (.command 0b00001101) = .ok .hardReset := by decide
theorem test_decode_illegal00 : decode (.command 0b00000000) = .ok .illegal00 := by decide
theorem test_decode_illegal0E : decode (.command 0b00001110) = .ok .illegal0E := by decide
theorem test_decode_illegal0F : decode (.command 0b00001111) = .ok .illegal0F := by decide
theorem test_decode_illegalHigh80 : decode (.command 0b11111100) = .ok (.illegalHigh80 0b11111100) := by decide
theorem test_decode_illegalHigh40 : decode (.command 0b01000010) = .ok (.illegalHigh40 0b01000010) := by decide
theorem test_decode_illegalHigh20 : decode (.command 0b00100001) = .ok (.illegalHigh20 0b00100001) := by decide
theorem test_decode_illegalHigh10 : decode (.command 0b00011111) = .ok (.illegalHigh10 0b00011111) := by decide
theorem test_decode_sciW : decode (.wire [0b00000010, 0b00001011, 0b00110000, 0b00010010]) =
    .ok (.sciW 0b00001011 0b0011000000010010) := by decide
theorem test_decode_sciR : decode (.wire [0b00000011, 0b00001011, 0b11111111, 0b11111111]) = .ok (.sciR 0b00001011) := by decide
/-- R98: the first byte is 0x02 or 0x03. -/
theorem test_decode_bad_frame : decode (.wire [0x04, 0x0B, 0, 0]) = .error .badFrame := by decide
theorem test_decode_sdiWriteByte : decode (.streamOut 0b10100101) = .ok (.sdiWriteByte 0b10100101) := by decide
theorem test_decode_sdiReadByte : decode (.streamIn 0b11111111) = .ok .sdiReadByte := by decide
theorem test_decode_pluginLit : decode (.plugin [0x0010, 0b0111111111111111]) = .ok (.pluginLit 0x0010 32767) := by decide
theorem test_decode_pluginRle : decode (.plugin [0x0020, 0b1000000000000011, 0x5555]) = .ok (.pluginRle 0x0020 3 0x5555) := by decide
theorem test_decode_appMagic : decode (.magic [0b01010000, 0b00100110, 0b01001000]) = .ok .appMagic := by decide
theorem test_decode_appDataT0 : decode (.app [0, 0b00000001, 0b00000100, 0b00010000, 0b00100000]) = .ok (.appDataT0 0x0104 0x1020) := by decide
theorem test_decode_appDataT1 : decode (.app [1, 0b00000001, 0b00000100, 0b00010000, 0b00100000]) = .ok (.appDataT1 0x0104 0x1020) := by decide
theorem test_decode_appDataT2 : decode (.app [2, 0b00000001, 0b00000100, 0b00010000, 0b00100000]) = .ok (.appDataT2 0x0104 0x1020) := by decide
theorem test_decode_appExec : decode (.app [3, 0b00000001, 0b00000100, 0b00010000, 0b00100000]) = .ok (.appExec 0x0104 0x1020) := by decide
theorem test_decode_appTypeIllegal04 : decode (.app [0b00000111]) = .ok (.appTypeIllegal04 0b00000111) := by decide
theorem test_decode_appTypeIllegal08 : decode (.app [0b00001000]) = .ok (.appTypeIllegal08 0b00001000) := by decide
theorem test_decode_appTypeIllegal10 : decode (.app [0b00011000]) = .ok (.appTypeIllegal10 0b00011000) := by decide
theorem test_decode_appTypeIllegal20 : decode (.app [0b00100000]) = .ok (.appTypeIllegal20 0b00100000) := by decide
theorem test_decode_appTypeIllegal40 : decode (.app [0b01111111]) = .ok (.appTypeIllegal40 0b01111111) := by decide
theorem test_decode_appTypeIllegal80 : decode (.app [0b10000000]) = .ok (.appTypeIllegal80 0b10000000) := by decide

/-- The word of a row, as opcode_table.json numbers it: a frame, a plugin header, a marker. -/
theorem test_table_frame : decodeTableWord 32 0x020B3012 = some (.sciW 0x0B 0x3012) := by decide
theorem test_table_header : decodeTableWord 16 0x8003 = some (.pluginRle 0 3 0) := by decide
theorem test_table_marker : decodeTableWord 24 0x502648 = some .appMagic := by decide

/-! ### A configured block with the parameters of spec/95 section 0 -/

def tp : Params where
  regMode := 0x00
  regClockf := 0x03
  regWram := 0x06
  regWramAddr := 0x07
  regAiaddr := 0x0A
  regVol := 0x0B
  initClockf := 0x8800
  initVol := 0x2020
  readyTimeout := none
  pollIntervalUs := 10
  resetAssertMs := 10
  resetRecoverMs := 100
  resetActiveLow := true
  oddAdvance := .full
  silentType := false
  sckHz := 1000000
  srcCap := 64
  srcwCap := 64
  dstCap := 16

/-- Power-on with these parameters; the chip answers READY with `rdy` and its bytes are `miso`. -/
def off (rdy : List Bool) (miso : List Byte) : State :=
  { State.reset with params := tp, rdyIn := rdy, misoIn := miso, grant := 200 }

/-- After INIT. -/
def on (rdy : List Bool) (miso : List Byte) : State := (off rdy miso).configured

/-- The timeout parameter set to `n`. -/
def limited (s : State) (n : Nat) : State := { s with params := { s.params with readyTimeout := some n } }

def lows (n : Nat) : List Bool := List.replicate n false
def highs (n : Nat) : List Bool := List.replicate n true
def zeros (n : Nat) : List Byte := List.replicate n 0

/-- Words or bytes from element 0 on. -/
def cells {α : Type} (l : List α) : List (Nat × α) := (List.range l.length).zip l

/-- The state after, or the reset state where there is none. -/
def after (o : Host.Outcome State Fault Refusal) : State :=
  match o with
  | .next t => t
  | _ => State.reset

/-- `W(r, v)` and `R(r)=v` of spec/95. -/
def fw (r : Byte) (h l : Byte) : List BusEvent :=
  [.rdy true, .sel .cmd false, .xfer 0x02 0, .xfer r 0, .xfer h 0, .xfer l 0, .sel .cmd true]
def fr (r : Byte) (h l : Byte) : List BusEvent :=
  [.rdy true, .sel .cmd false, .xfer 0x03 0, .xfer r 0, .xfer 0xFF h, .xfer 0xFF l, .sel .cmd true]
def hrst : List BusEvent := [.rst .asserted, .dly 10, .rst .deasserted, .dly 100]

/-- A command accepted with its latched operands, its place left behind. -/
def args (s : State) (cmd reg : Byte) (a b : Half) (len : Long) : State :=
  { s with lCmd := cmd, lReg := reg, lA := a, lB := b, lLen := len }

/-- What the vectors of spec/95 write down of a completion: the trace, ERR, RESULT, XCOUNT, ERR_POS. -/
def outcome (s : State) : List BusEvent × ErrCode × Half × Long × Long :=
  (s.trace, s.err, s.result, s.xcount, s.errPos)

/-! ### The commands (vectors of spec/95) -/

/-- V-G-2. -/
theorem test_waitReady : outcome (after (exec .waitReady (args (on [false, false, true] []) 0x01 0 0 0 0))) =
    ([.rdy false, .rdy false, .rdy true], .ok, 0, 0, 0) := by decide
/-- V-G-3. -/
theorem test_waitReady_timeout : outcome (after (exec .waitReady (args (limited (on (lows 3) []) 3) 0x01 0 0 0 0))) =
    ([.rdy false, .rdy false, .rdy false], .timeout, 0, 0, 0) := by decide
/-- V-C-1, the value changed so that its bytes differ. -/
theorem test_ctrlWrite : outcome (after (exec .ctrlWrite (args (on (highs 1) (zeros 4)) 0x02 0x0B 0x2021 0 0))) =
    (fw 0x0B 0x20 0x21, .ok, 0, 0, 0) := by decide
/-- V-C-4. -/
theorem test_ctrlRead : outcome (after (exec .ctrlRead (args (on (highs 1) [0, 0, 0x12, 0x34]) 0x03 0x01 0 0 0))) =
    (fr 0x01 0x12 0x34, .ok, 0x1234, 0, 0) := by decide
/-- V-S-1. -/
theorem test_streamWrite : outcome (after (exec .streamWrite (args ({ on (highs 4) (zeros 3) with src := cells [0xAA, 0xBB, 0xCC] }) 0x04 0 0 0 3))) =
    ([.rdy true, .sel .data false, .rdy true, .xfer 0xAA 0, .rdy true, .xfer 0xBB 0, 
      .rdy true, .xfer 0xCC 0, .sel .data true], .ok, 0, 3, 0) := by decide
/-- V-S-2. -/
theorem test_streamWrite_early : outcome (after (exec .streamWrite (args ({ on [true, true, true, false] (zeros 3) with src := cells [0xAA, 0xBB, 0xCC] }) 0x04 0 0 0 3))) =
    ([.rdy true, .sel .data false, .rdy true, .xfer 0xAA 0, .rdy true, .xfer 0xBB 0, 
      .rdy false, .sel .data true], .ok, 0, 2, 0) := by decide
/-- V-S-7. -/
theorem test_streamRead : outcome (after (exec .streamRead (args (on (highs 3) [0x5A, 0xA5]) 0x05 0 0 0 2))) =
    ([.rdy true, .sel .data false, .rdy true, .xfer 0xFF 0x5A, .rdy true, .xfer 0xFF 0xA5, .sel .data true],
      .ok, 0, 2, 0) := by decide
/-- V-S-8: the elements after the early stop stand. -/
theorem test_streamRead_dst : (after (exec .streamRead (args ({ on [true, true, false] [0x99] with dst := cells [0x11, 0x22, 0x33, 0x44] }) 0x05 0 0 0 4))).dst =
    cells [0x99, 0x22, 0x33, 0x44] := by decide
/-- V-M-1. -/
theorem test_ramWrite : outcome (after (exec .ramWrite (args (on (highs 2) (zeros 8)) 0x06 0 0x1E09 0x0002 0))) =
    (fw 0x07 0x1E 0x09 ++ fw 0x06 0x00 0x02, .ok, 0, 0, 0) := by decide
/-- V-M-2. -/
theorem test_ramRead : outcome (after (exec .ramRead (args (on (highs 2) (zeros 7 ++ [0x02])) 0x07 0 0x1E09 0 0))) =
    (fw 0x07 0x1E 0x09 ++ fr 0x06 0x00 0x02, .ok, 0x0002, 0, 0) := by decide
/-- V-M-5. -/
theorem test_regSetBits : outcome (after (exec .regSetBits (args (on (highs 2) ([0, 0, 0x08, 0x00] ++ zeros 4)) 0x08 0x00 0x0004 0 0))) =
    (fr 0x00 0x08 0x00 ++ fw 0x00 0x08 0x04, .ok, 0x0804, 0, 0) := by decide
/-- V-M-8. -/
theorem test_regClearBits : outcome (after (exec .regClearBits (args (on (highs 2) ([0, 0, 0x08, 0x04] ++ zeros 4)) 0x09 0x00 0x0004 0 0))) =
    (fr 0x00 0x08 0x04 ++ fw 0x00 0x08 0x00, .ok, 0x0800, 0, 0) := by decide
/-- V-P-9. -/
theorem test_loadPlugin : outcome (after (exec .loadPlugin (args ({ on (highs 5) (zeros 20) with srcw := cells [0x0010, 0x0001, 0xAAAA, 0x0020, 0x8002, 0x5555] }) 0x0A 0 0 0 6))) =
    (fw 0x07 0x00 0x10 ++ fw 0x06 0xAA 0xAA ++ fw 0x07 0x00 0x20 ++ fw 0x06 0x55 0x55 ++ fw 0x06 0x55 0x55,
      .ok, 0, 3, 0) := by decide
/-- V-P-12: ERR_POS is the second record's start. -/
theorem test_loadPlugin_timeout : outcome (after (exec .loadPlugin (args (limited ({ on [true, true, false] (zeros 8) with srcw := cells [0x0010, 0x0001, 0xAAAA, 0x0020, 0x8002, 0x5555] }) 1) 0x0A 0 0 0 6))) =
    (fw 0x07 0x00 0x10 ++ fw 0x06 0xAA 0xAA ++ [.rdy false], .timeout, 0, 1, 3) := by decide
/-- V-A-3: the odd byte 0xCC is dropped. -/
theorem test_loadApp : outcome (after (exec .loadApp (args ({ on (highs 3) (zeros 12) with src := cells [0x50, 0x26, 0x48, 0x01, 0x00, 0x03, 0x00, 0x20, 0xAA, 0xBB, 0xCC,
        0x03, 0x00, 0x00, 0x00, 0x20] }) 0x0B 0 0 0 16))) =
    (fw 0x07 0x00 0x20 ++ fw 0x06 0xAA 0xBB ++ fw 0x0A 0x00 0x20, .ok, 0, 1, 0) := by decide
/-- V-A-4: under EVEN the byte 0xCC is read as a type. -/
theorem test_loadApp_even : outcome (after (exec .loadApp (args ({ on (highs 3) (zeros 12) with params := { tp with oddAdvance := .even }, src := cells [0x50, 0x26, 0x48, 0x01, 0x00, 0x03, 0x00, 0x20, 0xAA, 0xBB, 0xCC,
        0x03, 0x00, 0x00, 0x00, 0x20] }) 0x0B 0 0 0 16))) =
    (fw 0x07 0x00 0x20 ++ fw 0x06 0xAA 0xBB, .invalidFormat, 0, 1, 10) := by decide
/-- V-L-1. -/
theorem test_init : outcome (after (exec .init (args (off (highs 2) (zeros 8)) 0x0C 0 0 0 0))) =
    ([.cfgPins, .cfgSpi] ++ hrst ++ fw 0x03 0x88 0x00 ++ fw 0x0B 0x20 0x20, .ok, 0, 0, 0) := by decide
/-- V-L-1: STATUS and LINES. -/
theorem test_init_status : (after (exec .init (args (off (highs 2) (zeros 8)) 0x0C 0 0 0 0))).statusWord = 0x02 ∧
    (after (exec .init (args (off (highs 2) (zeros 8)) 0x0C 0 0 0 0))).linesWord = 0x17 := by decide
/-- V-L-3. -/
theorem test_hardReset : outcome (after (exec .hardReset (args (on [] []) 0x0D 0 0 0 0))) =
    (hrst, .ok, 0, 0, 0) := by decide
/-- V-L-4. -/
theorem test_hardReset_power_on : outcome (after (exec .hardReset (args (off [] []) 0x0D 0 0 0 0))) =
    ([], .notInitialized, 0, 0, 0) := by decide
/-- V-I-1: RESULT and XCOUNT are kept. -/
theorem test_illegal00 : outcome (after (exec .illegal00 (args ({ off [] [] with result := 0x1234, xcount := 7 }) 0x00 0 0 0 65))) =
    ([], .illegalCommand, 0x1234, 7, 0) := by decide
/-- V-I-2. -/
theorem test_illegal0E : outcome (after (exec .illegal0E (args ({ off [] [] with result := 0x1234, xcount := 7 }) 0x0E 0 0 0 65))) =
    ([], .illegalCommand, 0x1234, 7, 0) := by decide
/-- V-I-3. -/
theorem test_illegal0F : outcome (after (exec .illegal0F (args ({ off [] [] with result := 0x1234, xcount := 7 }) 0x0F 0 0 0 65))) =
    ([], .illegalCommand, 0x1234, 7, 0) := by decide
/-- V-I-4. -/
theorem test_illegalHigh10 : outcome (after (exec (.illegalHigh10 0x12) (args ({ off [] [] with result := 0x1234, xcount := 7 }) 0x12 0 0 0 65))) =
    ([], .illegalCommand, 0x1234, 7, 0) := by decide
/-- V-I-6. -/
theorem test_illegalHigh80 : outcome (after (exec (.illegalHigh80 0xFC) (args ({ off [] [] with result := 0x1234, xcount := 7 }) 0xFC 0 0 0 65))) =
    ([], .illegalCommand, 0x1234, 7, 0) := by decide
/-- R259. -/
theorem test_illegalHigh40 : outcome (after (exec (.illegalHigh40 0x42) (args ({ off [] [] with result := 0x1234, xcount := 7 }) 0x42 0 0 0 65))) =
    ([], .illegalCommand, 0x1234, 7, 0) := by decide
/-- R259. -/
theorem test_illegalHigh20 : outcome (after (exec (.illegalHigh20 0x2C) (args ({ off [] [] with result := 0x1234, xcount := 7 }) 0x2C 0 0 0 65))) =
    ([], .illegalCommand, 0x1234, 7, 0) := by decide

/-! ### The objects inside a command -/

/-- V-C-7: an extra low sample. -/
theorem test_sciW : outcome (after (exec (.sciW 0xFF 0xFF00) (on [false, true] (zeros 4)))) =
    ([.rdy false] ++ fw 0xFF 0xFF 0x00, .ok, 0, 0, 0) := by decide
/-- V-C-9, R96: bytes 0 and 1 are discarded. -/
theorem test_sciR : (after (exec (.sciR 0x02) (on (highs 1) [0xA5, 0xA5, 0xA6, 0xA7]))).readBack = 0xA6A7 := by decide
/-- R97: the byte received is discarded. -/
theorem test_sdiWriteByte : (after (exec (.sdiWriteByte 0xAA) (on [] [0x77]))).trace = [.xfer 0xAA 0x77] := by decide
/-- R166, R78: the byte received is held for the completion. -/
theorem test_sdiReadByte : (after (exec .sdiReadByte ({ on [] [0x5A] with xc := 3 }))).dstIn = [(3, 0x5A)] := by decide
/-- R78: the completion writes it into `DST`, over what a host write while busy left there. -/
theorem test_received_over_race :
    (after (step (after (step { on [] [] with
      lCmd := 0x05, xc := 1, dstIn := [(0, 0x5A)], todo := [.complete .received],
      agenda := [.host (.writeDst 0 0x77)] })))).dst = [(0, 0x5A)] := by decide
/-- V-L1-5: the record alone. -/
theorem test_pluginLit : outcome (after (exec (.pluginLit 0x0010 2) (args ({ on (highs 3) (zeros 12) with srcw := cells [0x0010, 0x0002, 0xAAAA, 0xBBBB] }) 0x0A 0 0 0 4))) =
    (fw 0x07 0x00 0x10 ++ fw 0x06 0xAA 0xAA ++ fw 0x06 0xBB 0xBB, .ok, 0, 0, 0) := by decide
/-- V-L1-6: the record alone. -/
theorem test_pluginRle : outcome (after (exec (.pluginRle 0x0020 3 0x5555) (args (on (highs 4) (zeros 16)) 0x0A 0 0 0 3))) =
    (fw 0x07 0x00 0x20 ++ fw 0x06 0x55 0x55 ++ fw 0x06 0x55 0x55 ++ fw 0x06 0x55 0x55, .ok, 0, 0, 0) := by decide
/-- R222. -/
theorem test_appMagic : (after (exec .appMagic (on [] []))).cur = 3 := by decide
/-- V-A-13 with type 0. -/
theorem test_appDataT0 : (after (exec (.appDataT0 2 0x0100) (args ({ on (highs 2) (zeros 8) with cur := 3, src := [(8, 0xAB), (9, 0xCD)] }) 0x0B 0 0 0 10))).trace =
    fw 0x07 0x01 0x00 ++ fw 0x06 0xAB 0xCD := by decide
/-- V-A-13 with type 1. -/
theorem test_appDataT1 : (after (exec (.appDataT1 2 0x0100) (args ({ on (highs 2) (zeros 8) with cur := 3, src := [(8, 0xAB), (9, 0xCD)] }) 0x0B 0 0 0 10))).trace =
    fw 0x07 0x01 0x00 ++ fw 0x06 0xAB 0xCD := by decide
/-- V-A-13 with type 2. -/
theorem test_appDataT2 : (after (exec (.appDataT2 2 0x0100) (args ({ on (highs 2) (zeros 8) with cur := 3, src := [(8, 0xAB), (9, 0xCD)] }) 0x0B 0 0 0 10))).trace =
    fw 0x07 0x01 0x00 ++ fw 0x06 0xAB 0xCD := by decide
/-- V-A-14: the length field is not used. -/
theorem test_appExec : outcome (after (exec (.appExec 5 0x1234) (args ({ on (highs 1) (zeros 4) with cur := 3 }) 0x0B 0 0 0 10))) =
    (fw 0x0A 0x12 0x34, .ok, 0, 0, 0) := by decide
/-- V-A-5, in this row's range. -/
theorem test_appTypeIllegal04 : outcome (after (exec (.appTypeIllegal04 0x04) (args ({ on [] [] with cur := 3, xc := 1 }) 0x0B 0 0 0 8))) =
    ([], .invalidFormat, 0, 1, 3) := by decide
/-- V-A-5, in this row's range. -/
theorem test_appTypeIllegal08 : outcome (after (exec (.appTypeIllegal08 0x0F) (args ({ on [] [] with cur := 3, xc := 1 }) 0x0B 0 0 0 8))) =
    ([], .invalidFormat, 0, 1, 3) := by decide
/-- V-A-5, in this row's range. -/
theorem test_appTypeIllegal10 : outcome (after (exec (.appTypeIllegal10 0x10) (args ({ on [] [] with cur := 3, xc := 1 }) 0x0B 0 0 0 8))) =
    ([], .invalidFormat, 0, 1, 3) := by decide
/-- V-A-5, in this row's range. -/
theorem test_appTypeIllegal20 : outcome (after (exec (.appTypeIllegal20 0x3F) (args ({ on [] [] with cur := 3, xc := 1 }) 0x0B 0 0 0 8))) =
    ([], .invalidFormat, 0, 1, 3) := by decide
/-- V-A-5, in this row's range. -/
theorem test_appTypeIllegal40 : outcome (after (exec (.appTypeIllegal40 0x40) (args ({ on [] [] with cur := 3, xc := 1 }) 0x0B 0 0 0 8))) =
    ([], .invalidFormat, 0, 1, 3) := by decide
/-- V-A-5, in this row's range. -/
theorem test_appTypeIllegal80 : outcome (after (exec (.appTypeIllegal80 0xFF) (args ({ on [] [] with cur := 3, xc := 1 }) 0x0B 0 0 0 8))) =
    ([], .invalidFormat, 0, 1, 3) := by decide
/-- V-A-6. -/
theorem test_appTypeIllegal04_silent : outcome (after (exec (.appTypeIllegal04 0x04) (args ({ on [] [] with cur := 3, params := { tp with silentType := true } }) 0x0B 0 0 0 8))) =
    ([], .ok, 0, 0, 0) := by decide

/-! ### The step and the host -/

/-- R27: the accept, from power-on: no engine step is taken in it. -/
theorem test_accept : (after (step { off [] [] with agenda := [.host (.write 0 0x0C)] })).todo = [.command] := by decide

/-- V-O-1: a CMD write while busy sets OVR. -/
theorem test_overrun :
    (after (step { on [] [] with todo := [.gate], agenda := [.host (.write 0 0x02)] })).ovr = true := by decide

/-- R31: with a grant of 0 a step is one engine step: here the first sample. -/
theorem test_one_engine_step :
    (after (step { on [true] [] with todo := [.gate, .complete .nothing], grant := 0 })).todo =
      [.complete .nothing] := by decide

/-- R31: the last low sample and the TIMEOUT it leads to are two engine steps, and between them BUSY is 1 and
LAST_RDY 0. -/
theorem test_last_low_sample :
    (let t := after (step { limited (on [false] []) 1 with lastRdy := true, todo := [.gate], grant := 0 })
     t.busy = true ∧ t.lastRdy = false ∧ t.err = .ok ∧ (after (step t)).err = .timeout) := by decide

/-- R67: what stands on `MISO` in the low half of a clock period does not count. -/
theorem test_pins : sampledMosi (transferPhases 0xA1 (fun _ => true) (fun k => k == 0 || k == 6)) =
      [true, false, true, false, false, false, false, true] ∧
    sampledMiso (transferPhases 0xA1 (fun _ => true) (fun k => k == 0 || k == 6)) = 0x82 := by decide

/-- A table word placed where the sequencer meets it runs in the very next step, from reset. -/
theorem test_placed_word : (after (step (State.reset.withFetchWord 8 0x0E))).err = .illegalCommand := by decide
theorem test_placed_frame :
    (after (step (State.reset.withFetchWord 32 0x020B3012))).todo =
      [.gate, .sel .cmd false, .xfer 0x02 .discard, .xfer 0x0B .discard, .xfer 0x30 .discard, .xfer 0x12 .discard,
       .sel .cmd true, .complete .nothing] := by decide
theorem test_placed_marker : (after (step (State.reset.withFetchWord 24 0x502648))).cur = 3 := by decide

/-- R109: MODESET is REG_SET_BITS of the mode register. -/
theorem test_assembler : assemble tp (.modeSet 4) = assemble tp (.setb 0 4) := by decide

/-! ### The reset state -/

theorem test_reset_memory : State.reset.memInv := ⟨nil_wf, nil_wf, nil_wf, nil_wf⟩

/-! ### Witnesses: for every statement with hypotheses a state and operands that meet them, each clause at a
boundary of its range -/

/-- The host's turn. -/
def hostTurn (a : HostAct) (s : State) : State := { s with agenda := [.host a] }

/-- A gate of `k` low samples opens, with no timeout. -/
theorem opens (s : State) (k : Nat) (low : ∀ j, j < k → s.readyAt j = false) (high : s.readyAt k = true)
    (h : s.params.readyTimeout = none) : s.gateOpens k := ⟨low, high, by simp [h]⟩

theorem witness_DecodeEncodeRoundTrip :
    (Instr.illegalHigh10 0x10).wellFormed = true ∧ (Instr.illegalHigh10 0x1F).wellFormed = true := by decide

theorem witness_DecodedObjectsReencode :
    decodeWire [0x03, 0xFF, 0xFF, 0xFF] = .ok (.sciR 0xFF) ∧ decodePlugin [0, 0x8000, 0] = .ok (.pluginRle 0 0 0) ∧
    decodePlugin [0, 0x7FFF] = .ok (.pluginLit 0 0x7FFF) ∧ decodeMagic [0x50, 0x26, 0x48, 0x03] = .ok .appMagic ∧
    decodeApp [0x03, 0, 0, 0x12, 0x34, 0xFF] = .ok (.appExec 0 0x1234) ∧
    decodeApp [0x04] = .ok (.appTypeIllegal04 0x04) := by decide

theorem witness_HostRegisterMap :
    (∀ a, (hostTurn a (on [] [])).agenda = .host a :: []) ∧ (1 = 1 ∨ 6 ≤ 1) ∧ (6 = 1 ∨ 6 ≤ 6) ∧ 9 < 10 :=
  ⟨fun _ => rfl, by decide, by decide, by decide⟩

theorem witness_LinesFields :
    (on [] []).cfg = true ∧ (on [] []).csCmd = .high ∧ (on [] []).csData = .high ∧
    (driveReset .asserted (on [] [])).resetLine = .driven .asserted := by decide

theorem witness_CommandAcceptAndOverrun :
    (hostTurn (.write 0 1) (on [] [])).busy = false ∧
    (hostTurn (.write 0 1) { on [] [] with todo := [.gate] }).busy = true ∧
    (∀ n, n = 2 ∨ n = 5 → 2 ≤ n ∧ n ≤ 5 ∧
      (hostTurn (.write n 1) { on [] [] with todo := [.gate] }).agenda = .host (.write n 1) :: [] ∧
      (hostTurn (.write n 1) { on [] [] with todo := [.gate] }).busy = true) :=
  ⟨by decide, by decide, fun n h => ⟨by omega, by omega, rfl, rfl⟩⟩

/-- A step that is an engine turn, one that is an accept, one in which a command goes on. -/
theorem witness_steps :
    (∃ t, step { on [true] [] with todo := [.gate, .complete .nothing], grant := 0 } = .next t ∧ t.busy = true ∧
      t.trace = [.rdy true]) ∧
    (∃ t, step (hostTurn (.write 0 1) (on [] [])) = .next t ∧ t.busy = true ∧ t.lCmd = 0x01) :=
  ⟨⟨_, rfl, rfl, by decide⟩, ⟨_, rfl, rfl, rfl⟩⟩

theorem witness_OnlyAcceptLatches : ∃ t, step (hostTurn (.write 0 1) (on [] [])) = .next t := ⟨_, rfl⟩

theorem witness_InitDoneRule :
    3 ≤ (off [] []).grant ∧ (on [] []).initDone = true ∧ (∃ t, step (on [] []) = .next t) ∧
    Instr.waitReady ∈ legalCommandsButInit ∧ Instr.hardReset ∈ legalCommandsButInit ∧
    (off [] []).initDone = false := ⟨by decide, rfl, ⟨_, rfl⟩, by decide, by decide, rfl⟩

theorem witness_OvrIsSticky :
    (hostTurn (.write 0 2) { on [] [] with todo := [.gate] }).busy = true ∧
    ∃ t, step { on [] [] with ovr := true } = .next t := ⟨rfl, _, rfl⟩

/-- The last element of each memory, and the index after it. -/
theorem witness_HostBufferAccess :
    (let s := hostTurn (.writeSrc 63 1) (on [] []); s.agenda = .host (.writeSrc 63 1) :: [] ∧ 63 < s.params.srcCap) ∧
    (let s := hostTurn (.writeSrcw 63 1) (on [] []); s.agenda = .host (.writeSrcw 63 1) :: [] ∧ 63 < s.params.srcwCap) ∧
    (let s := hostTurn (.writeDst 15 1) (on [] [])
     s.agenda = .host (.writeDst 15 1) :: [] ∧ 15 < s.params.dstCap ∧ s.busy = false) ∧
    (let s := hostTurn (.readDst 15) (on [] [])
     s.agenda = .host (.readDst 15) :: [] ∧ 15 < s.params.dstCap ∧ s.busy = false) ∧
    (let s := hostTurn (.writeSrc 64 1) (on [] []); s.agenda = .host (.writeSrc 64 1) :: [] ∧ s.params.srcCap ≤ 64) ∧
    (let s := hostTurn (.writeSrcw 64 1) (on [] []); s.agenda = .host (.writeSrcw 64 1) :: [] ∧ s.params.srcwCap ≤ 64) ∧
    (let s := hostTurn (.writeDst 16 1) (on [] []); s.agenda = .host (.writeDst 16 1) :: [] ∧ s.params.dstCap ≤ 16) ∧
    (let s := hostTurn (.readDst 16) (on [] []); s.agenda = .host (.readDst 16) :: [] ∧ s.params.dstCap ≤ 16) := by
  decide

theorem witness_RacedReadIsOldOrNew :
    ({ on [] [] with todo := [.gate] }).busy = true ∧ ({ on [] [] with todo := [.gate] }).srcOld = [] ∧
    ({ on [] [] with todo := [.gate] }).srcwOld = [] := by decide

/-- The sequencer at a command word, at a plugin record of the last words, at an application record of the last bytes. -/
theorem witness_StepRunsDecodedInstruction :
    decode (.command (args { on [] [] with todo := [.command] } 0x0D 0 0 0 0).lCmd) = .ok .hardReset ∧
    (let s := args { on [] [] with todo := [.pluginRecord], srcw := cells [0x0010, 0x0000] } 0x0A 0 0 0 2
     s.agenda = [] ∧ s.sourcesStable ∧ s.cur < s.len ∧
      decode (.plugin ((List.range (min 3 (s.len - s.cur))).map fun k => s.srcwAt (s.cur + k))) =
        .ok (.pluginLit 0x0010 0)) ∧
    (let s := args { on [] [] with todo := [.appRecord], src := cells [0x04] } 0x0B 0 0 0 1
     s.agenda = [] ∧ s.sourcesStable ∧ s.cur < s.len ∧
      decode (.app ((List.range (min 5 (s.len - s.cur))).map fun k => s.srcAt (s.cur + k))) =
        .ok (.appTypeIllegal04 0x04)) ∧
    meet { on [] [] with todo := [.readFrame 0x0B] } = .instr (.sciR 0x0B) ∧
    meet { on [] [] with todo := [.readFrame 0x0B], agenda := [], grant := 7 } = .instr (.sciR 0x0B) :=
  ⟨rfl, ⟨rfl, ⟨rfl, rfl⟩, by decide, by decide⟩, ⟨rfl, ⟨rfl, rfl⟩, by decide, by decide⟩, rfl, rfl⟩

theorem witness_WaitDoneTurn :
    (let s := { on [] [] with agenda := [.waitDone], todo := [.gate] }; s.agenda = .waitDone :: [] ∧ s.busy = true) ∧
    (let s := { on [] [] with agenda := [.waitDone] }; s.agenda = .waitDone :: [] ∧ s.busy = false) := by decide

theorem witness_GrantOnlyGroupsEngineSteps : (on [] []).agenda = [] := rfl

theorem witness_NoEventOutsideCommands :
    (on [] []).todo = [] ∧ (∃ t, step (on [] []) = .next t) ∧
    ∃ t, step (hostTurn (.read 9) { on [] [] with todo := [.gate] }) = .next t := ⟨rfl, ⟨_, rfl⟩, ⟨_, rfl⟩⟩

/-- The bus invariant holds in the middle of a frame, from which a step is taken. -/
theorem witness_StepKeepsBusProtocol :
    ∃ s t : State, s.busInv ∧ step s = .next t ∧ s.csCmd = .low := by
  refine ⟨{ on [] [0x12] with
      csCmd := .low, grant := 0
      todo := [.xfer 0x0B .discard, .xfer 0x12 .discard, .xfer 0x34 .discard, .sel .cmd true, .complete .nothing]
      trace := [.rdy true, .sel .cmd false, .xfer 0x02 0] }, _, ⟨.inCmd 1, rfl, ?_, ?_⟩, rfl, rfl⟩
  · exact ⟨1, rfl, by decide, by decide, 2, rfl, by decide, by decide, 3, rfl, by decide, by decide, rfl, rfl⟩
  · exact ⟨⟨fun _ => ⟨1, rfl⟩, fun _ => rfl⟩, ⟨fun h => (by cases h), fun h => (by rcases h with h | h <;> cases h)⟩⟩

/-- A frame, then a streaming bracket of one byte that stops early: both kinds of bracket, and two falling edges. -/
theorem witness_ProtocolMeansSelectRules :
    (let frame : List BusEvent := [.xfer 0x02 0, .xfer 0x0B 0, .xfer 0x12 0, .xfer 0x34 0]
     let bytes : List BusEvent := [.rdy true, .xfer 0xAA 0, .rdy false]
     let t := [.rdy true] ++ .sel .cmd false :: (frame ++ .sel .cmd true ::
       (.rdy true :: .sel .data false :: (bytes ++ .sel .data true :: [])))
     busPhase t = some .closed ∧ BusEvent.sel .cmd true ∉ frame ∧ BusEvent.sel .data true ∉ bytes ∧
      t = ([.rdy true] ++ .sel .cmd false :: (frame ++ [.sel .cmd true, .rdy true])) ++ .sel .data false ::
        (bytes ++ .sel .data true :: []) ∧
      t = [.rdy true] ++ .sel .cmd false :: ((frame ++ [.sel .cmd true, .rdy true]) ++ .sel .data false ::
        (bytes ++ .sel .data true :: []))) ∧
    (∃ s : State, s.busInv ∧ s.busy = false) :=
  ⟨by decide, on [] [], ⟨.closed, rfl, rfl, ⟨fun h => (by cases h), fun ⟨_, h⟩ => (by cases h)⟩,
    ⟨fun h => (by cases h), fun h => (by rcases h with h | h <;> cases h)⟩⟩, rfl⟩

theorem witness_StepKeepsPreInit :
    (off [] []).preInitInv ∧ (off [] []).initDone = false ∧ ∃ t, step (off [] []) = .next t :=
  ⟨fun _ => .inl ⟨rfl, rfl, rfl, rfl, rfl, rfl, .inl rfl⟩, rfl, _, rfl⟩

theorem witness_StepKeepsMemoryForm :
    ({ on [] [] with src := cells [1, 2] }).memInv ∧
    ∃ t, step (hostTurn (.writeSrc 1 7) { on [] [] with src := cells [1, 2] }) = .next t :=
  ⟨⟨by decide, nil_wf, nil_wf, nil_wf⟩, _, rfl⟩

theorem witness_EngineLeavesSourcesAlone :
    (let s := args { on [false] [] with todo := [.gate], grant := 0 } 0x04 0 0 0 1
     (∃ t, step s = .next t ∧ t.busy = true) ∧ (∀ a rest, s.agenda ≠ .host a :: rest) ∧
      decodeCommand s.lCmd ≠ .streamRead ∧ .complete .received ∉ s.todo) :=
  ⟨⟨_, rfl, rfl⟩, fun _ _ h => (by cases h), by decide, by decide⟩

theorem witness_CompletionEntry :
    (args (on [] []) 0x05 0 0 0 2).lCmd = 0x05 ∧ (args (on [] []) 0x04 0 0 0 2).lCmd ≠ 0x05 := by decide

theorem witness_NotInitializedRefusal :
    Instr.waitReady ∈ legalCommandsButInit ∧ decodeCommand (args (off [] []) 0x01 0 0 0 0).lCmd = .waitReady ∧
    Instr.loadApp ∈ legalCommandsButInit ∧ decodeCommand (args (off [] []) 0x0B 0 0 0 8).lCmd = .loadApp ∧
    (off [] []).initDone = false := by decide

theorem witness_InvalidArgumentRefusal :
    (on [] []).initDone = true ∧ (on [] []).params.srcCap < (args (on [] []) 0x04 0 0 0 65).len ∧
    (on [] []).params.dstCap < (args (on [] []) 0x05 0 0 0 17).len ∧
    (on [] []).params.srcwCap < (args (on [] []) 0x0A 0 0 0 65).len ∧
    (on [] []).params.srcCap < (args (on [] []) 0x0B 0 0 0 65).len ∧
    decodeCommand 0x04 = .streamWrite ∧ decodeCommand 0x05 = .streamRead ∧ decodeCommand 0x0A = .loadPlugin ∧
    decodeCommand 0x0B = .loadApp := by decide

theorem witness_IllegalCommandCompletes :
    illegalCommands .illegal00 ∧ decodeCommand (args (on [] []) 0x00 0 0 0 0).lCmd = .illegal00 ∧
    illegalCommands (.illegalHigh10 0x10) ∧ decodeCommand (args (on [] []) 0x10 0 0 0 0).lCmd = .illegalHigh10 0x10 ∧
    illegalCommands (.illegalHigh80 0xFF) ∧
    decodeCommand (args (on [] []) 0xFF 0 0 0 0).lCmd = .illegalHigh80 0xFF :=
  ⟨.inl rfl, by decide, .inr (.inr (.inr ⟨0x10, .inr (.inr (.inr rfl))⟩)), by decide,
    .inr (.inr (.inr ⟨0xFF, .inl rfl⟩)), by decide⟩

/-- A chip that answers low three times, under a timeout of three. -/
theorem witness_TimeoutBeforeSelect :
    (let s := args (limited (on (lows 3) []) 3) 0x04 0 0 0 64
     s.params.readyTimeout = some 3 ∧ s.notReadyFor 3 ∧ 1 ≤ 3 ∧ 2 * 3 ≤ s.grant ∧ s.initDone = true ∧ s.len ≤ s.params.srcCap) ∧
    (args (limited (on (lows 3) []) 3) 0x05 0 0 0 16).len ≤ tp.dstCap :=
  ⟨⟨rfl, by unfold State.notReadyFor; decide, by decide, by decide, rfl, by decide⟩, by decide⟩

theorem witness_GateHangsOrEnds :
    (let s := { on (lows 3) [] with todo := [.gate] }
     s.todo = .gate :: [] ∧ s.polls = 0 ∧ s.params.readyTimeout = none ∧ s.notReadyFor 3) ∧
    (let s := limited { on [] [] with todo := [.gate] } 1
     s.todo = .gate :: [] ∧ s.polls = 0 ∧ s.params.readyTimeout = some 1) :=
  ⟨⟨rfl, rfl, rfl, by unfold State.notReadyFor; decide⟩, ⟨rfl, rfl, rfl⟩⟩

/-- A gate whose last low sample is the last one under the limit (R131). -/
theorem witness_gate_at_limit : (limited (on [false, false, true] []) 3).gateOpens 2 :=
  ⟨by decide, rfl, fun n h => by cases h; decide⟩

theorem witness_WaitReadyCompletes :
    (on [] []).initDone = true ∧ (limited (on [false, false, true] []) 3).gateOpens 2 ∧ 2 * 2 + 2 ≤ (on [] []).grant :=
  ⟨rfl, witness_gate_at_limit, by decide⟩

theorem witness_ControlWriteFrame :
    (limited (on [false, false, true] []) 3).gateOpens 2 ∧
    2 * 2 + 7 ≤ ({ limited (on [false, false, true] []) 3 with grant := 11 }).grant := ⟨witness_gate_at_limit, by decide⟩

theorem witness_ControlReadFrame :
    (limited (on [false, false, true] []) 3).gateOpens 2 ∧
    2 * 2 + 7 ≤ ({ limited (on [false, false, true] []) 3 with grant := 11 }).grant := ⟨witness_gate_at_limit, by decide⟩

theorem witness_CtrlWriteCompletes :
    (on (highs 1) (zeros 4)).initDone = true ∧ (on (highs 1) (zeros 4)).gateOpens 0 ∧
    2 * 0 + 9 ≤ (on (highs 1) (zeros 4)).grant := ⟨rfl, opens _ _ (by decide) rfl rfl, by decide⟩

theorem witness_CtrlReadCompletes :
    (on (highs 1) (zeros 4)).initDone = true ∧ (on (highs 1) (zeros 4)).gateOpens 0 ∧
    2 * 0 + 9 ≤ (on (highs 1) (zeros 4)).grant := witness_CtrlWriteCompletes

/-- The state after a control write, in which the host has had a control read of the same register accepted; the chip
returns the value written. -/
theorem witness_WriteThenReadRoundTrip :
    (let s := args (on [true, true] (zeros 6 ++ [0x12, 0x34])) 0x02 0x0B 0x1234 0 0
     let t := after (exec .ctrlWrite s)
     let u := args t 0x03 0x0B 0 0 0
     s.initDone = true ∧ s.gateOpens 0 ∧ 2 * 0 + 9 ≤ s.grant ∧ u.initDone = t.initDone ∧ u.trace = t.trace ∧
      u.lReg = s.lReg ∧ u.gateOpens 0 ∧ 2 * 0 + 9 ≤ u.grant ∧ u.misoAt 2 = hi8 s.lA ∧ u.misoAt 3 = lo8 s.lA) :=
  ⟨rfl, opens _ _ (by decide) rfl rfl, by decide, rfl, rfl, rfl, opens _ _ (by decide) rfl rfl, by decide, by decide,
    by decide⟩

/-- Two frames whose gates open, the second after a low sample. -/
theorem witness_RamWriteCompletes :
    (let s := args (on [true, false, true] (zeros 8)) 0x06 0 0x1E09 2 0
     s.initDone = true ∧ s.gateOpens 0 ∧ (s.wroteFrame 0 s.params.regWramAddr s.lA).gateOpens 1 ∧
      2 * (0 + 1) + 17 ≤ s.grant) :=
  ⟨rfl, opens _ _ (by decide) rfl rfl, opens _ _ (by decide) rfl rfl, by decide⟩

theorem witness_RamReadCompletes :
    (let s := args (on [true, false, true] (zeros 8)) 0x07 0 0x1E09 0 0
     s.initDone = true ∧ s.gateOpens 0 ∧ (s.wroteFrame 0 s.params.regWramAddr s.lA).gateOpens 1 ∧
      2 * (0 + 1) + 17 ≤ s.grant) :=
  ⟨rfl, opens _ _ (by decide) rfl rfl, opens _ _ (by decide) rfl rfl, by decide⟩

theorem witness_ReadModifyWriteCompletes :
    (let s := args (on [true, false, true] [0, 0, 0x08, 0x00]) 0x08 0 4 0 0
     s.initDone = true ∧ s.gateOpens 0 ∧ (s.didReadFrame 0 s.lReg).gateOpens 1 ∧ 2 * (0 + 1) + 18 ≤ s.grant ∧
      s.nextRead ||| s.lA = 0x0804 ∧ s.nextRead &&& ~~~s.lA = 0x0800) :=
  ⟨rfl, opens _ _ (by decide) rfl rfl, opens _ _ (by decide) rfl rfl, by decide, by decide, by decide⟩

/-- A whole bracket, an early stop after two bytes, an empty one. -/
theorem witness_StreamWriteCompletes :
    (let s := args (on [true, true, true, false] (zeros 3)) 0x04 0 0 0 3
     s.initDone = true ∧ s.len ≤ s.params.srcCap ∧ s.sourcesStable ∧ s.gateOpens 0 ∧ s.bracketOf 0 2 s.len ∧
      2 * 0 + 3 * 2 + 5 ≤ s.grant) ∧
    (args (on (highs 4) (zeros 3)) 0x04 0 0 0 3).bracketOf 0 3 3 ∧ (args (on (highs 1) []) 0x04 0 0 0 0).bracketOf 0 0 0 :=
  ⟨⟨rfl, by decide, ⟨rfl, rfl⟩, opens _ _ (by decide) rfl rfl, ⟨by decide, by decide, by decide⟩, by decide⟩,
    ⟨by decide, by decide, by decide⟩, ⟨by decide, by decide, by decide⟩⟩

/-- An early stop after one byte, a whole bracket that fills `DST`, an empty one. -/
theorem witness_StreamReadCompletes :
    (let s := args (on [true, true, false] [0x99]) 0x05 0 0 0 4
     s.initDone = true ∧ s.len ≤ s.params.dstCap ∧ s.gateOpens 0 ∧ s.bracketOf 0 1 s.len ∧
      2 * 0 + 3 * 1 + 5 ≤ s.grant) ∧
    (let s := args (on (highs 17) (zeros 16)) 0x05 0 0 0 16
     s.initDone = true ∧ s.len ≤ s.params.dstCap ∧ s.gateOpens 0 ∧ s.bracketOf 0 16 s.len ∧
      2 * 0 + 3 * 16 + 5 ≤ s.grant) ∧
    (let s := args (on (highs 1) []) 0x05 0 0 0 0
     s.initDone = true ∧ s.len ≤ s.params.dstCap ∧ s.gateOpens 0 ∧ s.bracketOf 0 0 s.len ∧
      2 * 0 + 3 * 0 + 5 ≤ s.grant) :=
  ⟨⟨rfl, by decide, opens _ _ (by decide) rfl rfl, ⟨by decide, by decide, by decide⟩, by decide⟩,
    ⟨rfl, by decide, opens _ _ (by decide) rfl rfl, ⟨by decide, by decide, by decide⟩, by decide⟩,
    ⟨rfl, by decide, opens _ _ (by decide) rfl rfl, ⟨by decide, by decide, by decide⟩, by decide⟩⟩

/-- An RLE record of count 2, and one of count 0 at the end of the image. -/
theorem witness_RleRecord :
    (let s := args (on [true, false, true, true] (zeros 12)) 0x0A 0 0 0 3
     s.cur + 3 ≤ s.len ∧ s.framesOpen [(0, 7, 0x20), (1, 6, 0x5555), (0, 6, 0x5555)] ∧
      plainFrames [(0, 7, 0x20), (1, 6, 0x5555), (0, 6, 0x5555)] =
        (s.params.regWramAddr, 0x20) :: List.replicate 2 (s.params.regWram, 0x5555) ∧
      2 * lowSamples [(0, 7, 0x20), (1, 6, 0x5555), (0, 6, 0x5555)] + 10 * 2 + 10 ≤ s.grant) ∧
    (on (highs 1) []).framesOpen [(0, 7, 0x20)] :=
  ⟨⟨by decide, ⟨opens _ _ (by decide) rfl rfl, opens _ _ (by decide) rfl rfl, opens _ _ (by decide) rfl rfl, trivial⟩,
    rfl, by decide⟩, ⟨opens _ _ (by decide) rfl rfl, trivial⟩⟩

theorem witness_LiteralRecord :
    (let s := args { on (highs 3) (zeros 12) with srcw := cells [0x0010, 2, 0xAAAA, 0xBBBB] } 0x0A 0 0 0 4
     s.cur + (2 + 2) ≤ s.len ∧ s.sourcesStable ∧ s.framesOpen [(0, 7, 0x10), (0, 6, 0xAAAA), (0, 6, 0xBBBB)] ∧
      plainFrames [(0, 7, 0x10), (0, 6, 0xAAAA), (0, 6, 0xBBBB)] = (s.params.regWramAddr, 0x10) ::
        (List.range 2).map (fun j => (s.params.regWram, s.srcwAt (s.cur + 2 + j))) ∧
      2 * lowSamples [(0, 7, 0x10), (0, 6, 0xAAAA), (0, 6, 0xBBBB)] + 10 * 2 + 10 ≤ s.grant) :=
  ⟨by decide, ⟨rfl, rfl⟩,
    ⟨opens _ _ (by decide) rfl rfl, opens _ _ (by decide) rfl rfl, opens _ _ (by decide) rfl rfl, trivial⟩,
    by decide, by decide⟩

/-- One word left; an RLE header with no value; a literal record that overruns by one word. -/
theorem witness_PluginOverrun :
    (let s := args { on [] [] with todo := [.pluginRecord] } 0x0A 0 0 0 1
     3 ≤ s.grant ∧ decodeCommand s.lCmd = .loadPlugin ∧ s.agenda = [] ∧ s.todo = .pluginRecord :: [] ∧
      s.sourcesStable ∧ s.cur < s.len ∧ s.len = s.cur + 1) ∧
    (let s := args { on [] [] with todo := [.pluginRecord], srcw := cells [0x10, 0x8002] } 0x0A 0 0 0 2
     s.cur < s.len ∧ s.len = s.cur + 2 ∧ (s.srcwAt (s.cur + 1)).getLsbD 15 = true) ∧
    (let s := args { on [] [] with todo := [.pluginRecord], srcw := cells [0x10, 3, 0xAAAA, 0xBBBB] } 0x0A 0 0 0 4
     s.cur < s.len ∧ (s.srcwAt (s.cur + 1)).getLsbD 15 = false ∧
      s.len < s.cur + 2 + (s.srcwAt (s.cur + 1)).toNat) :=
  ⟨⟨by decide, by decide, rfl, rfl, ⟨rfl, rfl⟩, by decide, by decide⟩, by decide, by decide⟩

theorem witness_EmptyPluginImage :
    (args (on [] []) 0x0A 0 0 0 0).initDone = true ∧ (args (on [] []) 0x0A 0 0 0 0).len = 0 ∧
    2 ≤ (on [] []).grant := by decide

/-- The image of V-P-9. -/
theorem witness_LoadPluginRunsImage :
    (let rs : List PluginRecord := [.lit 0x10 [0xAAAA], .rle 0x20 2 0x5555]
     let fs : List GatedFrame := [(0, 7, 0x10), (0, 6, 0xAAAA), (0, 7, 0x20), (0, 6, 0x5555), (0, 6, 0x5555)]
     let s := args { on (highs 5) (zeros 20) with srcw := cells [0x10, 1, 0xAAAA, 0x20, 0x8002, 0x5555] } 0x0A 0 0 0 6
     s.initDone = true ∧ (∀ r ∈ rs, r.fits) ∧ s.len = (rs.flatMap PluginRecord.words).length ∧
      s.len ≤ s.params.srcwCap ∧ s.sourcesStable ∧
      (∀ j, j < s.len → s.srcwAt j = (rs.flatMap PluginRecord.words).getD j 0) ∧
      plainFrames fs = rs.flatMap (PluginRecord.frames s.params) ∧ s.framesOpen fs) := by
  refine ⟨rfl, ?_, by decide, by decide, ⟨rfl, rfl⟩, by decide, by decide, ?_⟩
  · simp [PluginRecord.fits]
  · exact ⟨opens _ _ (by decide) rfl rfl, opens _ _ (by decide) rfl rfl, opens _ _ (by decide) rfl rfl,
      opens _ _ (by decide) rfl rfl, opens _ _ (by decide) rfl rfl, trivial⟩

theorem witness_MarkerCheck :
    (let s := args (on [] []) 0x0B 0 0 0 2
     decodeCommand s.lCmd = .loadApp ∧ s.initDone = true ∧ s.len ≤ s.params.srcCap ∧ s.len < 3) ∧
    (let s := args { on [] [] with todo := [.magicBytes [], .appRecord], src := cells [0x50, 0x26, 0x49] } 0x0B 0 0 0 3
     3 ≤ s.grant ∧ decodeCommand s.lCmd = .loadApp ∧ s.agenda = [] ∧ s.todo = .magicBytes [] :: [.appRecord] ∧
      s.sourcesStable ∧ ¬ (s.srcAt 0 = 0x50 ∧ s.srcAt 1 = 0x26 ∧ s.srcAt 2 = 0x48)) :=
  ⟨by decide, by decide, by decide, rfl, rfl, ⟨rfl, rfl⟩, by decide⟩

/-- An odd payload of three bytes, under FULL, at the end of the buffer. -/
theorem witness_DataRecord :
    (let s := args { on (highs 2) (zeros 8) with cur := 3, src := [(8, 0xAA), (9, 0xBB), (10, 0xCC)] } 0x0B 0 0 0 11
     let fs : List GatedFrame := [(0, 7, 0x20), (0, 6, 0xAABB)]
     s.cur + 5 + advBytes s.params.oddAdvance 3 ≤ s.len ∧ s.sourcesStable ∧
      plainFrames fs = (s.params.regWramAddr, 0x20) :: (List.range ((3 : Half).toNat / 2)).map (fun j =>
        (s.params.regWram, cat16 (s.srcAt (s.cur + 5 + 2 * j)) (s.srcAt (s.cur + 6 + 2 * j)))) ∧
      s.framesOpen fs ∧ 2 * lowSamples fs + 11 * ((3 : Half).toNat / 2) + 10 ≤ s.grant) :=
  ⟨by decide, ⟨rfl, rfl⟩, by decide, ⟨opens _ _ (by decide) rfl rfl, opens _ _ (by decide) rfl rfl, trivial⟩,
    by decide⟩

theorem witness_ExecuteRecord :
    (let s := args { on (highs 1) (zeros 4) with cur := 3 } 0x0B 0 0 0 8
     s.cur + 5 ≤ s.len ∧ s.gateOpens 0 ∧ 2 * 0 + 9 ≤ s.grant) := ⟨by decide, opens _ _ (by decide) rfl rfl, by decide⟩

theorem witness_UnknownRecordType :
    Instr.appTypeIllegal04 0x04 ∈ badTypeRecords 0x04 ∧ Instr.appTypeIllegal80 0xFF ∈ badTypeRecords 0xFF ∧
    1 ≤ (on [] []).grant ∧ decodeCommand (args (on [] []) 0x0B 0 0 0 8).lCmd = .loadApp ∧
    (on [] []).params.silentType = false ∧
    ({ on [] [] with params := { tp with silentType := true } }).params.silentType = true := by decide

/-- A header one byte short; a payload one byte short. -/
theorem witness_ApplicationOverrun :
    (let s := args { on [] [] with todo := [.appRecord], cur := 3, src := [(3, 0x03)] } 0x0B 0 0 0 7
     6 ≤ s.grant ∧ decodeCommand s.lCmd = .loadApp ∧ s.agenda = [] ∧ s.todo = .appRecord :: [] ∧ s.sourcesStable ∧
      s.cur < s.len ∧ (s.srcAt s.cur).toNat ≤ 3 ∧ s.len < s.cur + 5) ∧
    (let s := args { on [] [] with todo := [.appRecord], cur := 3, src := [(3, 0), (4, 0), (5, 4)] } 0x0B 0 0 0 11
     s.cur < s.len ∧ (s.srcAt s.cur).toNat ≤ 3 ∧ (s.srcAt s.cur).toNat ≠ 3 ∧
      s.len < s.cur + 5 + advBytes s.params.oddAdvance (cat16 (s.srcAt (s.cur + 1)) (s.srcAt (s.cur + 2)))) :=
  ⟨⟨by decide, by decide, rfl, rfl, ⟨rfl, rfl⟩, by decide, by decide, by decide⟩, by decide⟩

/-- An image of one data record, an execute record and two trailing bytes. -/
theorem witness_LoadAppRunsImage :
    (let rs : List AppRecord := [⟨1, 0x0300, [0xBE, 0xEF]⟩]
     let fs : List GatedFrame := [(0, 7, 0x0300), (0, 6, 0xBEEF), (0, 10, 0x0300)]
     let s := args { on (highs 3) (zeros 12) with
       src := cells [0x50, 0x26, 0x48, 1, 0, 2, 3, 0, 0xBE, 0xEF, 3, 0, 5, 3, 0, 0xFF, 0xFF] } 0x0B 0 0 0 17
     s.initDone = true ∧ (∀ r ∈ rs, r.payload.length < 2 ^ 16) ∧ s.params.oddAdvance = .full ∧
      s.len = (appImage rs (some (5, 0x0300))).length + 2 ∧ (some ((5 : Half), (0x0300 : Half)) = none → 2 = 0) ∧
      s.len ≤ s.params.srcCap ∧ s.sourcesStable ∧
      (∀ j, j < (appImage rs (some (5, 0x0300))).length → s.srcAt j = (appImage rs (some (5, 0x0300))).getD j 0) ∧
      plainFrames fs = rs.flatMap (AppRecord.frames s.params) ++ activation s.params (some (5, 0x0300)) ∧
      s.framesOpen fs) := by
  refine ⟨rfl, by decide, rfl, by decide, by decide, by decide, ⟨rfl, rfl⟩, by decide, by decide, ?_⟩
  exact ⟨opens _ _ (by decide) rfl rfl, opens _ _ (by decide) rfl rfl, opens _ _ (by decide) rfl rfl, trivial⟩

/-- INIT from power-on, its two gates opening at once. -/
theorem witness_InitCompletes :
    (let s := off (highs 2) (zeros 8)
     s.gateOpens 0 ∧ (s.initialised.wroteFrame 0 s.params.regClockf s.params.initClockf).gateOpens 0 ∧
      2 * (0 + 0) + 24 ≤ s.grant) :=
  ⟨opens _ _ (by decide) rfl rfl, opens _ _ (by decide) rfl rfl, by decide⟩

theorem witness_HardResetCompletes :
    (on [] []).initDone = true ∧ 5 ≤ (on [] []).grant ∧ (off [] []).initDone = false ∧
    decodeCommand (args (off [] []) 0x0D 0 0 0 0).lCmd = .hardReset := by decide

theorem witness_ResetPinLevel :
    State.reset.resetLine = .z ∧ (driveReset .asserted (on [] [])).resetLine = .driven .asserted ∧
    (on [] []).resetLine = .driven .deasserted := by decide

end Sys2Proof.Tests
end

section
/-! SUPPORT. What a step can do to the state: one host access, or engine steps on a state that differs in the
scheduling fields and the host's read record alone. -/

namespace Sys2Proof.Machine

variable {s t : State}

/-- What every engine step keeps, a turn of engine steps keeps. -/
theorem runEngine_preserves {P : State → Prop} (hstep : ∀ u, P u → P (engineStep u)) (n : Nat) (h : P s) :
    P (runEngine n s) := by
  induction n generalizing s with
  | zero => exact h
  | succ n ih =>
    by_cases hs : s.todo = []
    · rwa [runEngine_idle _ hs]
    · rw [runEngine_succ _ hs]
      exact ih (hstep s h)

/-- The engine step at an object that decodes is the object's first engine step. -/
theorem engineStep_of_meet_instr {i : Instr} (h : meet s = .instr i) : engineStep s = startOf i s.pop := by
  cases hs : s.todo with
  | nil => simp [meet, hs] at h
  | cons m r => simp [engineStep, hs, h]

/-- The engine step at an object that does not decode is error entry. -/
theorem engineStep_of_meet_bad {e : ErrCode} {pos : Nat} (h : meet s = .bad e pos) : engineStep s = raise e pos s := by
  cases hs : s.todo with
  | nil => simp [meet, hs] at h
  | cons m r => simp [engineStep, hs, h]

/-- One engine step: the first step of an object, error entry, a primitive, or nothing with no command running. -/
theorem engineStep_cases (s : State) :
    (∃ i, engineStep s = startOf i s.pop) ∨ (∃ e pos, engineStep s = raise e pos s) ∨
    (∃ m, engineStep s = microStep m s) ∨ engineStep s = s := by
  cases hs : s.todo with
  | nil => exact .inr (.inr (.inr (engineStep_idle hs)))
  | cons m r =>
    cases hm : meet s with
    | instr i => exact .inl ⟨i, engineStep_of_meet_instr hm⟩
    | bad e pos => exact .inr (.inl ⟨e, pos, engineStep_of_meet_bad hm⟩)
    | micro => exact .inr (.inr (.inl ⟨m, by simp [engineStep, hs, hm]⟩))

/-- A turn of the engine is its first engine step and as many more as that step's state grants, fewer where the command
completes first. -/
theorem engineTurn_eq (s : State) :
    engineTurn s = .next (runEngine (engineStep s).grant (engineStep s)) := by
  unfold engineTurn
  cases h : meet s with
  | instr i => simp only [exec_eq, engineStep_of_meet_instr h]
  | bad e pos => simp only [engineStep_of_meet_bad h, runEngine_idle _ (raise_todo s e pos)]
  | micro => rfl

/-- A step is one access of the host, or engine steps on the state with its scheduling fields and the host's read record
moved on (R15, R31); an idle WAITDONE turn takes none. -/
theorem step_cases (h : step s = .next t) :
    (∃ a rest, s.agenda = .host a :: rest ∧ hostAccess a { s with agenda := rest } = .next t) ∨
    (∃ ag g rs, t = { s with agenda := ag, grant := g, reads := rs } ∨
      ∃ n, t = runEngine n (engineStep { s with agenda := ag, grant := g, reads := rs })) := by
  unfold step at h
  split at h
  case h_1 =>
    rw [engineTurn_eq] at h
    cases h
    exact .inr ⟨s.agenda, s.grant, s.reads, .inr ⟨_, rfl⟩⟩
  case h_2 g rest _ =>
    rw [engineTurn_eq] at h
    cases h
    exact .inr ⟨rest, g, s.reads, .inr ⟨_, rfl⟩⟩
  case h_3 a rest ha => exact .inl ⟨a, rest, ha, h⟩
  case h_4 rest _ =>
    split at h
    · rw [engineTurn_eq] at h
      cases h
      exact .inr ⟨s.agenda, s.grant, s.reads ++ [s.hostRegister 1], .inr ⟨_, rfl⟩⟩
    · cases h
      exact .inr ⟨rest, s.grant, s.reads ++ [s.hostRegister 1], .inl rfl⟩

end Sys2Proof.Machine
end

section
/-! SUPPORT. The trace and the completion list only grow and the parameters stand (R8, R41): one rule for each operation
the meanings share, then for the engine step, the host's accesses and the step. -/

namespace Sys2Proof.Machine

/-- `t` comes after `s` in a run: its trace and completion list begin with those of `s`, under the same parameters. -/
structure State.OnlyAppends (s t : State) : Prop where
  trace : s.trace <+: t.trace
  completions : s.completions <+: t.completions
  params : t.params = s.params

namespace State.OnlyAppends

variable {s t u : State}

/-- A state in which the three fields stand as they were. -/
theorem of_eq (htrace : t.trace = s.trace) (hcompletions : t.completions = s.completions)
    (hparams : t.params = s.params) : s.OnlyAppends t :=
  ⟨⟨[], by simp [htrace]⟩, ⟨[], by simp [hcompletions]⟩, hparams⟩

theorem refl (s : State) : s.OnlyAppends s := of_eq rfl rfl rfl

theorem trans (hst : s.OnlyAppends t) (htu : t.OnlyAppends u) : s.OnlyAppends u :=
  ⟨hst.trace.trans htu.trace, hst.completions.trans htu.completions, htu.params.trans hst.params⟩

/-- Where a run begins, only the three fields matter. -/
theorem of_start (htu : t.OnlyAppends u) (htrace : t.trace = s.trace) (hcompletions : t.completions = s.completions)
    (hparams : t.params = s.params) : s.OnlyAppends u :=
  (of_eq htrace hcompletions hparams).trans htu

/-- A test, where each branch only appends. -/
theorem ite {c : Prop} [Decidable c] (htrue : s.OnlyAppends t) (hfalse : s.OnlyAppends u) :
    s.OnlyAppends (if c then t else u) := by
  split
  · exact htrue
  · exact hfalse

end State.OnlyAppends

open State (OnlyAppends)

variable (s : State)

/-! ### The shared operations -/

theorem pop_onlyAppends : s.OnlyAppends s.pop := .of_eq rfl rfl rfl

theorem push_onlyAppends (ms : List Micro) : s.OnlyAppends (s.push ms) := .of_eq rfl rfl rfl

theorem pop_push_onlyAppends (ms : List Micro) : s.OnlyAppends (s.pop.push ms) := .of_eq rfl rfl rfl

theorem gated_onlyAppends (rest : List Micro) : s.OnlyAppends (s.gated rest) := .of_eq rfl rfl rfl

theorem dataWrite_onlyAppends (v : Half) (again : Micro) : s.OnlyAppends (dataWrite v again s) := .of_eq rfl rfl rfl

theorem srcByte_onlyAppends (i : Nat) : s.OnlyAppends (srcByte i s).2 := by
  obtain ⟨n, hn⟩ := srcByte_frame s i
  rw [hn]
  exact .of_eq rfl rfl rfl

theorem srcWord_onlyAppends (i : Nat) : s.OnlyAppends (srcWord i s).2 := by
  obtain ⟨n, hn⟩ := srcWord_frame s i
  rw [hn]
  exact .of_eq rfl rfl rfl

theorem keepByte_onlyAppends (d : Dest) (r : Byte) : s.OnlyAppends (keepByte d r s) := by
  cases d <;> exact .of_eq rfl rfl rfl

/-- Appending one event. -/
theorem emit_onlyAppends (e : BusEvent) : s.OnlyAppends (s.emit e) :=
  ⟨⟨[e], rfl⟩, ⟨[], List.append_nil _⟩, rfl⟩

theorem sampleReady_onlyAppends : s.OnlyAppends (sampleReady s).2 :=
  (emit_onlyAppends s (.rdy (s.readyAt 0))).trans (.of_eq rfl rfl rfl)

theorem transfer_onlyAppends (b : Byte) : s.OnlyAppends (transfer b s).2 :=
  (emit_onlyAppends s (.xfer b (s.misoAt 0))).trans (.of_eq rfl rfl rfl)

theorem driveSelect_onlyAppends (l : Line) (high : Bool) : s.OnlyAppends (driveSelect l high s) := by
  cases l with
  | cmd => exact (emit_onlyAppends s (.sel .cmd high)).trans (.of_eq rfl rfl rfl)
  | data => exact (emit_onlyAppends s (.sel .data high)).trans (.of_eq rfl rfl rfl)

theorem driveReset_onlyAppends (a : ResetDrive) : s.OnlyAppends (driveReset a s) :=
  (emit_onlyAppends s (.rst a)).trans (.of_eq rfl rfl rfl)

theorem configurePins_onlyAppends : s.OnlyAppends (configurePins s) :=
  (emit_onlyAppends s .cfgPins).trans (.of_eq rfl rfl rfl)

theorem configureSpi_onlyAppends : s.OnlyAppends (configureSpi s) :=
  (emit_onlyAppends s .cfgSpi).trans (.of_eq rfl rfl rfl)

/-- The end of a command lists its completion entry. -/
theorem finish_onlyAppends (e : ErrCode) (pos : Nat) (r : Option Half) (c : Option Nat) :
    s.OnlyAppends (finish e pos r c s) :=
  ⟨⟨[], List.append_nil _⟩, ⟨_, rfl⟩, rfl⟩

theorem raise_onlyAppends (e : ErrCode) (pos : Nat) : s.OnlyAppends (raise e pos s) :=
  .of_start (finish_onlyAppends _ e pos _ _) rfl rfl rfl

theorem complete_onlyAppends (w : Written) : s.OnlyAppends (complete w s) := by
  cases w with
  | received => exact .of_start (finish_onlyAppends s.commitDst _ _ _ _) rfl rfl rfl
  | nothing | readValue | modified _ | count => exact finish_onlyAppends s _ _ _ _

variable {s}

theorem whenInitialized_onlyAppends {k : State → State} (hk : s.OnlyAppends (k s)) :
    s.OnlyAppends (whenInitialized s k) := by
  obtain ⟨-, h⟩ | ⟨-, h⟩ := whenInitialized_cases s k
  · rwa [h]
  · rw [h]
    exact raise_onlyAppends s _ _

theorem whenFits_onlyAppends {cap : Nat} {k : State → State} (hk : s.OnlyAppends (k s)) :
    s.OnlyAppends (whenFits cap s k) := by
  obtain ⟨-, h⟩ | ⟨-, h⟩ := whenFits_cases s cap k
  · rwa [h]
  · rw [h]
    exact raise_onlyAppends s _ _

variable (s)

/-! ### The first engine step of an object -/

theorem startLoadApp_onlyAppends : s.OnlyAppends (startLoadApp s) := by
  refine .of_start (whenInitialized_onlyAppends (whenFits_onlyAppends ?_)) rfl rfl rfl
  exact .ite (raise_onlyAppends _ _ _) (push_onlyAppends _ _)

theorem startPluginLit_onlyAppends (addr : Half) (count : BitVec 15) :
    s.OnlyAppends (startPluginLit addr count s) :=
  .ite (.of_start (raise_onlyAppends _ _ _) rfl rfl rfl) (.of_eq rfl rfl rfl)

theorem startPluginRle_onlyAppends (addr : Half) (count : BitVec 15) (value : Half) :
    s.OnlyAppends (startPluginRle addr count value s) :=
  .ite (.of_start (raise_onlyAppends _ _ _) rfl rfl rfl) (.of_eq rfl rfl rfl)

theorem appDataRecord_onlyAppends (ty : Byte) (len addr : Half) : s.OnlyAppends (appDataRecord ty len addr s) :=
  .ite (.of_start (raise_onlyAppends _ _ _) rfl rfl rfl) (.of_eq rfl rfl rfl)

theorem startAppExec_onlyAppends (len addr : Half) : s.OnlyAppends (startAppExec len addr s) :=
  .ite (.of_start (raise_onlyAppends _ _ _) rfl rfl rfl) (.of_eq rfl rfl rfl)

theorem badAppType_onlyAppends (ty : Byte) : s.OnlyAppends (badAppType ty s) :=
  .ite (.of_eq rfl rfl rfl) (.of_start (raise_onlyAppends _ _ _) rfl rfl rfl)

theorem startOf_onlyAppends (i : Instr) : s.OnlyAppends (startOf i s) := by
  cases i with
  | waitReady =>
    dsimp only [startOf]
    refine whenInitialized_onlyAppends ?_
    exact gated_onlyAppends s _
  | ctrlWrite | ctrlRead | ramWrite | ramRead | regSetBits | regClearBits | hardReset =>
    dsimp only [startOf]
    refine whenInitialized_onlyAppends ?_
    exact push_onlyAppends s _
  | streamWrite | streamRead | loadPlugin =>
    dsimp only [startOf]
    refine .of_start (whenInitialized_onlyAppends (whenFits_onlyAppends ?_)) rfl rfl rfl
    exact .of_eq rfl rfl rfl
  | loadApp => exact startLoadApp_onlyAppends s
  | init => exact push_onlyAppends s _
  | illegal00 | illegal0E | illegal0F | illegalHigh80 _ | illegalHigh40 _ | illegalHigh20 _ | illegalHigh10 _ =>
    exact raise_onlyAppends s _ _
  | sciW reg v => exact gated_onlyAppends s _
  | sciR reg => exact gated_onlyAppends s _
  | sdiWriteByte b => exact (transfer_onlyAppends s b).trans (.of_eq rfl rfl rfl)
  | sdiReadByte => exact (transfer_onlyAppends s _).trans (push_onlyAppends _ _)
  | pluginLit addr count => exact startPluginLit_onlyAppends s addr count
  | pluginRle addr count value => exact startPluginRle_onlyAppends s addr count value
  | appMagic => exact .of_eq rfl rfl rfl
  | appDataT0 len addr | appDataT1 len addr | appDataT2 len addr => exact appDataRecord_onlyAppends s _ len addr
  | appExec len addr => exact startAppExec_onlyAppends s len addr
  | appTypeIllegal04 ty | appTypeIllegal08 ty | appTypeIllegal10 ty | appTypeIllegal20 ty | appTypeIllegal40 ty
  | appTypeIllegal80 ty => exact badAppType_onlyAppends s ty

/-! ### The primitives and the loops -/

theorem gateStep_onlyAppends : s.OnlyAppends (gateStep s) := by
  obtain ⟨-, h⟩ | ⟨-, h⟩ := gateStep_cases s <;> rw [h]
  · exact (sampleReady_onlyAppends s).trans (pop_onlyAppends _)
  · exact (sampleReady_onlyAppends s).trans (push_onlyAppends _ _)

theorem pollStep_onlyAppends : s.OnlyAppends (pollStep s) := by
  obtain ⟨-, h⟩ | ⟨-, h⟩ := pollStep_cases s <;> rw [h]
  · exact .of_start (raise_onlyAppends _ _ _) rfl rfl rfl
  · exact .of_eq rfl rfl rfl

theorem streamStep_onlyAppends (d : Dir) : s.OnlyAppends (streamStep d s) :=
  .ite
    (.ite ((sampleReady_onlyAppends s).trans (push_onlyAppends _ _))
      ((sampleReady_onlyAppends s).trans (pop_onlyAppends _)))
    (pop_onlyAppends s)

theorem pluginStep_onlyAppends : s.OnlyAppends (pluginStep s) :=
  .ite (pop_onlyAppends s) (.ite (raise_onlyAppends s _ _) (pop_push_onlyAppends s _))

theorem appRecordStep_onlyAppends : s.OnlyAppends (appRecordStep s) :=
  .ite (pop_onlyAppends s) (pop_push_onlyAppends s _)

theorem rleStep_onlyAppends (j : Nat) : s.OnlyAppends (rleStep j s) :=
  .ite (dataWrite_onlyAppends s _ _) (pop_onlyAppends s)

theorem litStep_onlyAppends (j : Nat) : s.OnlyAppends (litStep j s) :=
  .ite ((srcWord_onlyAppends s _).trans (dataWrite_onlyAppends _ _ _)) (pop_onlyAppends s)

theorem appStep_onlyAppends (j : Nat) : s.OnlyAppends (appStep j s) :=
  .ite ((srcByte_onlyAppends s _).trans (pop_push_onlyAppends _ _)) (pop_onlyAppends s)

theorem appLowStep_onlyAppends (j : Nat) (h : Byte) : s.OnlyAppends (appLowStep j h s) :=
  (srcByte_onlyAppends s _).trans (.of_eq rfl rfl rfl)

theorem microStep_onlyAppends (m : Micro) : s.OnlyAppends (microStep m s) := by
  cases m with
  | gate => exact gateStep_onlyAppends s
  | polled => exact pollStep_onlyAppends s
  | sel l high => exact (pop_onlyAppends s).trans (driveSelect_onlyAppends _ l high)
  | xfer b d =>
    exact (pop_onlyAppends s).trans ((transfer_onlyAppends _ b).trans (keepByte_onlyAppends _ d _))
  | stream d => exact streamStep_onlyAppends s d
  | fetchByte | magicBytes _ | appBytes _ => exact (srcByte_onlyAppends s _).trans (pop_push_onlyAppends _ _)
  | pluginWords _ => exact (srcWord_onlyAppends s _).trans (pop_push_onlyAppends _ _)
  | cfgPins => exact (pop_onlyAppends s).trans (configurePins_onlyAppends _)
  | cfgSpi => exact (pop_onlyAppends s).trans (configureSpi_onlyAppends _)
  | setReset a => exact (pop_onlyAppends s).trans (driveReset_onlyAppends _ a)
  | delay ms => exact (pop_onlyAppends s).trans (emit_onlyAppends _ _)
  | rleData j => exact rleStep_onlyAppends s j
  | litData j => exact litStep_onlyAppends s j
  | appData j => exact appStep_onlyAppends s j
  | appLow j h => exact appLowStep_onlyAppends s j h
  | pluginRecord => exact pluginStep_onlyAppends s
  | appRecord => exact appRecordStep_onlyAppends s
  | complete w => exact complete_onlyAppends s w
  | storeByte _ | setInitDone | modify _ | countData | advance _ => exact .of_eq rfl rfl rfl
  | command | writeFrame _ _ | readFrame _ | sendByte _ | receiveByte => exact pop_onlyAppends s

/-! ### The engine and the host -/

theorem engineStep_onlyAppends : s.OnlyAppends (engineStep s) := by
  obtain ⟨i, h⟩ | ⟨e, pos, h⟩ | ⟨m, h⟩ | h := engineStep_cases s <;> rw [h]
  · exact (pop_onlyAppends s).trans (startOf_onlyAppends _ i)
  · exact raise_onlyAppends s e pos
  · exact microStep_onlyAppends s m
  · exact .refl s

theorem runEngine_onlyAppends (n : Nat) : s.OnlyAppends (runEngine n s) :=
  runEngine_preserves (fun u hu => hu.trans (engineStep_onlyAppends u)) n (.refl s)

variable {s} {t : State}

/-- A host register write leaves the trace, the completion list and the parameters. -/
theorem hostWrite_keeps_record (n : Nat) (v : Long) :
    (hostWrite n v s).trace = s.trace ∧ (hostWrite n v s).completions = s.completions ∧
      (hostWrite n v s).params = s.params := by
  unfold hostWrite
  split
  case h_1 =>
    unfold writeCmd
    split <;> exact ⟨rfl, rfl, rfl⟩
  all_goals exact ⟨rfl, rfl, rfl⟩

/-- A host access leaves the trace, the completion list and the parameters. -/
theorem hostAccess_keeps_record {a : HostAct} (h : hostAccess a s = .next t) :
    t.trace = s.trace ∧ t.completions = s.completions ∧ t.params = s.params := by
  cases a with
  | write n v =>
    cases h
    exact hostWrite_keeps_record n v
  | read n =>
    cases h
    exact ⟨rfl, rfl, rfl⟩
  | writeSrc i b | writeSrcw i w =>
    simp only [hostAccess] at h
    split at h <;> cases h
    exact ⟨rfl, rfl, rfl⟩
  | writeDst i b =>
    simp only [hostAccess, hostWriteDst] at h
    split at h <;> cases h
    split <;> exact ⟨rfl, rfl, rfl⟩
  | readDst i =>
    simp only [hostAccess, hostReadDst] at h
    split at h <;> cases h
    split <;> exact ⟨rfl, rfl, rfl⟩

/-- R8, R41, for a whole step. -/
theorem step_onlyAppends (h : step s = .next t) : s.OnlyAppends t := by
  obtain ⟨a, rest, -, ha⟩ | ⟨ag, g, rs, rfl | ⟨n, rfl⟩⟩ := step_cases h
  · obtain ⟨htrace, hcompletions, hparams⟩ := hostAccess_keeps_record ha
    exact .of_eq htrace hcompletions hparams
  · exact .of_eq rfl rfl rfl
  · exact .of_start ((engineStep_onlyAppends _).trans (runEngine_onlyAppends _ n)) rfl rfl rfl

/-! ### The reset pin (R21) -/

theorem resetPin_of_z (h : s.resetLine = .z) : s.resetPin = none := by simp [State.resetPin, h]

theorem resetPin_of_asserted (h : s.resetLine = .driven .asserted) : s.resetPin = some (!s.params.resetActiveLow) := by
  simp [State.resetPin, h]

theorem resetPin_of_deasserted (h : s.resetLine = .driven .deasserted) : s.resetPin = some s.params.resetActiveLow := by
  simp [State.resetPin, h]

end Sys2Proof.Machine
end

section
/-! The statements of spec/00_scope.md. -/

namespace Sys2Proof.Machine

/-- Settles O20: every operation of a step only appends. -/
theorem stepOnlyAppends : Obligations.StepOnlyAppends := by
  intro s t h
  obtain ⟨⟨es, htrace⟩, ⟨cs, hcompletions⟩, hparams⟩ := step_onlyAppends h
  exact ⟨⟨es, htrace.symm⟩, ⟨cs, hcompletions.symm⟩, hparams⟩

/-- Settles O60, one lemma for each value of `RESET`. -/
theorem resetPinLevel : Obligations.ResetPinLevel := fun _ =>
  ⟨resetPin_of_z, resetPin_of_asserted, resetPin_of_deasserted⟩

end Sys2Proof.Machine
end

section
/-! SUPPORT. What the operations of an engine step do to the state of a running command, said once: the events they
append, the select lines they drive, and what they leave as it was. -/

namespace Sys2Proof.Machine

/-! ### The state a running command works on -/

/-- `s` with what a running command writes before its completion taken from `t`. -/
def State.withWorking (s t : State) : State :=
  { s with
    csCmd := t.csCmd, csData := t.csData, resetLine := t.resetLine, spiOn := t.spiOn
    initDone := t.initDone, cfg := t.cfg, lastRdy := t.lastRdy
    todo := t.todo, cur := t.cur, recAddr := t.recAddr, recHdr := t.recHdr, recCnt := t.recCnt
    recVal := t.recVal, recType := t.recType, recLen := t.recLen, hi := t.hi, lo := t.lo, rd := t.rd
    polls := t.polls, xc := t.xc, dstIn := t.dstIn, trace := t.trace, rdyIn := t.rdyIn, rdyCount := t.rdyCount
    misoIn := t.misoIn, misoCount := t.misoCount, freeCount := t.freeCount }

/-- `s` with what an internal computation writes taken from `t`: no line, no event, no byte for `DST`. -/
def State.withComputed (s t : State) : State :=
  { s with
    todo := t.todo, cur := t.cur, recAddr := t.recAddr, recHdr := t.recHdr, recCnt := t.recCnt
    recVal := t.recVal, recType := t.recType, recLen := t.recLen, hi := t.hi, lo := t.lo, rd := t.rd
    polls := t.polls, xc := t.xc, freeCount := t.freeCount }

/-- The level of one select line. -/
def State.select (s : State) : Line → SelLevel
  | .cmd => s.csCmd
  | .data => s.csData

/-- The level of select line `l`, at `v` before, after an event. -/
def BusEvent.level (l : Line) (v : SelLevel) : BusEvent → SelLevel
  | .cfgPins => .high
  | .sel l' high => if l' = l then (if high then .high else .low) else v
  | _ => v

/-- `t` comes after `s` inside a running command, with exactly the events `es`, each of which drives the select lines as
it says. -/
structure State.Emits (s : State) (es : List BusEvent) (t : State) : Prop where
  frame : t = s.withWorking t
  trace : t.trace = s.trace ++ es
  select : ∀ l, t.select l = es.foldl (BusEvent.level l) (s.select l)
  initDone : s.initDone = true → t.initDone = true
  dstIn : BufferWf s.dstIn → BufferWf t.dstIn

namespace State.Emits

variable {s t u : State} {es fs : List BusEvent}

/-- An internal computation appends nothing. -/
theorem of_computed (h : t = s.withComputed t) : s.Emits [] t where
  frame := by rw [h]; rfl
  trace := by rw [h]; exact (List.append_nil _).symm
  select := by rw [h]; exact fun _ => rfl
  initDone := by rw [h]; exact id
  dstIn := by rw [h]; exact id

theorem trans (hst : s.Emits es t) (htu : t.Emits fs u) : s.Emits (es ++ fs) u where
  frame := htu.frame.trans (congrArg (·.withWorking u) hst.frame)
  trace := by rw [htu.trace, hst.trace, List.append_assoc]
  select l := by rw [htu.select, hst.select, List.foldl_append]
  initDone := htu.initDone ∘ hst.initDone
  dstIn := htu.dstIn ∘ hst.dstIn

/-- Events, and then an internal computation. -/
theorem then_computed (hst : s.Emits es t) (htu : u = t.withComputed u) : s.Emits es u := by
  simpa using hst.trans (of_computed htu)

/-- An internal computation, and then events. -/
theorem of_start (hst : t = s.withComputed t) (htu : t.Emits es u) : s.Emits es u :=
  (of_computed hst).trans htu

end State.Emits

variable (s : State)

/-! ### The operations -/

theorem srcByte_computed (i : Nat) : (srcByte i s).2 = s.withComputed (srcByte i s).2 := by
  obtain ⟨n, hn⟩ := srcByte_frame s i
  rw [hn]
  rfl

theorem srcWord_computed (i : Nat) : (srcWord i s).2 = s.withComputed (srcWord i s).2 := by
  obtain ⟨n, hn⟩ := srcWord_frame s i
  rw [hn]
  rfl

/-- Reading a source element keeps the pseudocode. -/
@[simp] theorem srcByte_todo (i : Nat) : (srcByte i s).2.todo = s.todo := by
  obtain ⟨n, hn⟩ := srcByte_frame s i
  rw [hn]

@[simp] theorem srcWord_todo (i : Nat) : (srcWord i s).2.todo = s.todo := by
  obtain ⟨n, hn⟩ := srcWord_frame s i
  rw [hn]

theorem srcByte_emits (i : Nat) : s.Emits [] (srcByte i s).2 := .of_computed (srcByte_computed s i)

theorem srcWord_emits (i : Nat) : s.Emits [] (srcWord i s).2 := .of_computed (srcWord_computed s i)

theorem sampleReady_emits : s.Emits [.rdy (s.readyAt 0)] (sampleReady s).2 :=
  ⟨rfl, rfl, fun _ => rfl, id, id⟩

theorem transfer_emits (b : Byte) : s.Emits [.xfer b (s.misoAt 0)] (transfer b s).2 :=
  ⟨rfl, rfl, fun _ => rfl, id, id⟩

theorem keepByte_computed (d : Dest) (r : Byte) : keepByte d r s = s.withComputed (keepByte d r s) := by
  cases d <;> rfl

@[simp] theorem keepByte_todo (d : Dest) (r : Byte) : (keepByte d r s).todo = s.todo := by
  cases d <;> rfl

theorem driveSelect_emits (l : Line) (high : Bool) : s.Emits [.sel l high] (driveSelect l high s) := by
  cases l with
  | cmd => exact ⟨rfl, rfl, fun l => by cases l <;> rfl, id, id⟩
  | data => exact ⟨rfl, rfl, fun l => by cases l <;> rfl, id, id⟩

@[simp] theorem driveSelect_todo (l : Line) (high : Bool) : (driveSelect l high s).todo = s.todo := by
  cases l <;> rfl

theorem driveReset_emits (a : ResetDrive) : s.Emits [.rst a] (driveReset a s) := ⟨rfl, rfl, fun _ => rfl, id, id⟩

theorem configurePins_emits : s.Emits [.cfgPins] (configurePins s) :=
  ⟨rfl, rfl, fun l => by cases l <;> rfl, id, id⟩

theorem configureSpi_emits : s.Emits [.cfgSpi] (configureSpi s) := ⟨rfl, rfl, fun _ => rfl, id, id⟩

theorem delayFor_emits (ms : Nat) : s.Emits [.dly ms] (delayFor ms s) := ⟨rfl, rfl, fun _ => rfl, id, id⟩

theorem storeDst_emits (i : Nat) (b : Byte) : s.Emits [] (storeDst i b s) :=
  ⟨rfl, (List.append_nil _).symm, fun _ => rfl, id, writeBuffer_wf i b⟩

end Sys2Proof.Machine
end

section
/-! SUPPORT. The bus protocol (R43-R45) as an automaton: its moves, the brackets they open and close, and the select
lines they drive. -/

namespace Sys2Proof.Machine

/-- The bracket of line `l` is open. -/
def BusPhase.inside (l : Line) : BusPhase → Bool
  | .inCmd _ => l = .cmd
  | .inData | .dataReady => l = .data
  | _ => false

/-- Where the bracket of line `l` begins. -/
def BusPhase.opened : Line → BusPhase
  | .cmd => .inCmd 0
  | .data => .inData

/-- The moves of the automaton. -/
inductive BusPhase.Move : BusPhase → BusEvent → BusPhase → Prop
  | sample {b} (v : Bool) : b.idle = true → Move b (.rdy v) (if v then .ready else .closed)
  | pins {b} : b.idle = true → Move b .cfgPins .closed
  | spi {b} : b.idle = true → Move b .cfgSpi .closed
  | reset {b} (a : ResetDrive) : b.idle = true → Move b (.rst a) .closed
  | delay {b} (ms : Nat) : b.idle = true → Move b (.dly ms) .closed
  | fall (l : Line) : Move .ready (.sel l false) (.opened l)
  | frameByte {n : Nat} {o : Byte} (i : Byte) :
      n < 4 → (n = 0 → o = 0x02#8 ∨ o = 0x03#8) → Move (.inCmd n) (.xfer o i) (.inCmd (n + 1))
  | frameEnd : Move (.inCmd 4) (.sel .cmd true) .closed
  | dataSample (v : Bool) : Move .inData (.rdy v) (if v then .dataReady else .inData)
  | dataByte (o i : Byte) : Move .dataReady (.xfer o i) .inData
  | dataEnd : Move .inData (.sel .data true) .closed

variable {b b' : BusPhase} {e : BusEvent} {es : List BusEvent} {l : Line}

/-- Where no bracket is open. -/
theorem move_of_after_idle (hb : b.idle = true) (h : b.after e = some b') : b.Move e b' := by
  cases b with
  | closed | ready =>
    cases e with
    | rdy v => cases h; exact .sample v hb
    | cfgPins => cases h; exact .pins hb
    | cfgSpi => cases h; exact .spi hb
    | rst a => cases h; exact .reset a hb
    | dly ms => cases h; exact .delay ms hb
    | sel l v => cases l <;> cases v <;> cases h <;> exact .fall _
    | xfer o i => cases h
  | inCmd _ | inData | dataReady => cases hb

theorem move_of_after_inCmd {n : Nat} (h : (BusPhase.inCmd n).after e = some b') : (BusPhase.inCmd n).Move e b' := by
  cases e with
  | xfer o i =>
    change (if n < 4 ∧ (n = 0 → o = 0x02#8 ∨ o = 0x03#8) then some (BusPhase.inCmd (n + 1)) else none) = some b' at h
    split at h <;> cases h
    rename_i hn
    exact .frameByte i hn.1 hn.2
  | sel l v =>
    cases l <;> cases v
    case cmd.true =>
      change (if n = 4 then some BusPhase.closed else none) = some b' at h
      split at h <;> cases h
      subst n
      exact .frameEnd
    all_goals cases h
  | rdy _ | cfgPins | cfgSpi | rst _ | dly _ => cases h

theorem move_of_after_inside_data (hb : b.inside .data = true) (h : b.after e = some b') : b.Move e b' := by
  cases b with
  | inData =>
    cases e with
    | rdy v => cases h; exact .dataSample v
    | sel l v => cases l <;> cases v <;> cases h; exact .dataEnd
    | xfer _ _ | cfgPins | cfgSpi | rst _ | dly _ => cases h
  | dataReady =>
    cases e with
    | xfer o i => cases h; exact .dataByte o i
    | sel l v => cases l <;> cases v <;> cases h
    | rdy _ | cfgPins | cfgSpi | rst _ | dly _ => cases h
  | closed | ready | inCmd _ => cases hb

/-- What the automaton admits is one of its moves. -/
theorem move_of_after (h : b.after e = some b') : b.Move e b' := by
  cases b with
  | closed | ready => exact move_of_after_idle rfl h
  | inCmd n => exact move_of_after_inCmd h
  | inData | dataReady => exact move_of_after_inside_data rfl h

/-- Every move is admitted. -/
theorem BusPhase.Move.after (h : b.Move e b') : b.after e = some b' := by
  cases h with
  | sample v hb | pins hb | spi hb | reset a hb | delay ms hb =>
    cases b with
    | closed | ready => rfl
    | inCmd _ | inData | dataReady => cases hb
  | fall l => cases l <;> rfl
  | frameByte i hn ho => exact if_pos ⟨hn, ho⟩
  | frameEnd | dataSample _ | dataByte _ _ | dataEnd => rfl

/-! ### Runs -/

theorem busPhase_eq_foldlM (t : List BusEvent) : busPhase t = t.foldlM BusPhase.after .closed :=
  (List.foldlM_eq_foldl BusPhase.after .closed t).symm

theorem busPhase_append (t es : List BusEvent) (h : busPhase t = some b) :
    busPhase (t ++ es) = es.foldlM BusPhase.after b := by
  rw [busPhase_eq_foldlM] at h ⊢
  simp [h]

/-- A run over two parts is a run over the first and then over the second. -/
theorem run_append {xs ys : List BusEvent} :
    (xs ++ ys).foldlM BusPhase.after b = some b' ↔
      ∃ c, xs.foldlM BusPhase.after b = some c ∧ ys.foldlM BusPhase.after c = some b' := by
  simp [Option.bind_eq_some_iff]

/-- A run over an event and more is a move and a run. -/
theorem run_cons {xs : List BusEvent} :
    (e :: xs).foldlM BusPhase.after b = some b' ↔
      ∃ c, b.Move e c ∧ xs.foldlM BusPhase.after c = some b' := by
  simp only [List.foldlM_cons, Option.bind_eq_bind, Option.bind_eq_some_iff]
  exact exists_congr fun c => and_congr_left fun _ => ⟨move_of_after, BusPhase.Move.after⟩

theorem BusPhase.Move.run (h : b.Move e b') : [e].foldlM BusPhase.after b = some b' :=
  run_cons.2 ⟨b', h, rfl⟩

/-! ### Brackets and lines over a move -/

/-- Inside a line's bracket every event but the line's rise leaves it open. -/
theorem BusPhase.Move.stays_inside (h : b.Move e b') (hb : b.inside l = true) (he : e ≠ .sel l true) :
    b'.inside l = true := by
  cases h with
  | sample _ hi | pins hi | spi hi | reset _ hi | delay _ hi => cases b <;> cases hi <;> cases hb
  | fall => cases hb
  | frameByte => exact hb
  | frameEnd | dataEnd => simp_all [BusPhase.inside]
  | dataSample v => cases v <;> exact hb
  | dataByte => exact hb

/-- An event leaves a select line low exactly where it leaves that line's bracket open. -/
theorem BusPhase.Move.level (h : b.Move e b') {v : SelLevel} (hv : v = .low ↔ b.inside l = true) :
    e.level l v = .low ↔ b'.inside l = true := by
  cases h with
  | sample w hi => cases b <;> cases hi <;> cases w <;> exact hv
  | spi hi | reset _ hi | delay _ hi => cases b <;> cases hi <;> exact hv
  | pins hi => simp [BusEvent.level, BusPhase.inside]
  | fall l' => cases l <;> cases l' <;> simp_all [BusEvent.level, BusPhase.inside, BusPhase.opened]
  | frameByte => exact hv
  | frameEnd | dataEnd => cases l <;> simp_all [BusEvent.level, BusPhase.inside]
  | dataSample w => cases w <;> exact hv
  | dataByte => exact hv

/-- A run leaves a select line low exactly where it leaves that line's bracket open. -/
theorem level_of_run {v : SelLevel} (h : es.foldlM BusPhase.after b = some b') (hv : v = .low ↔ b.inside l = true) :
    es.foldl (BusEvent.level l) v = .low ↔ b'.inside l = true := by
  induction es generalizing b v with
  | nil => cases h; exact hv
  | cons e es ih =>
    obtain ⟨c, hmove, hrun⟩ := run_cons.1 h
    exact ih hrun (hmove.level hv)

/-- A line's bracket stays open over a run without its rise. -/
theorem run_stays_inside (h : es.foldlM BusPhase.after b = some b') (hb : b.inside l = true)
    (hes : BusEvent.sel l true ∉ es) : b'.inside l = true := by
  induction es generalizing b with
  | nil => cases h; exact hb
  | cons e es ih =>
    obtain ⟨c, hmove, hrun⟩ := run_cons.1 h
    obtain ⟨he, hes⟩ := List.ne_and_not_mem_of_not_mem_cons hes
    exact ih hrun (hmove.stays_inside hb (Ne.symm he)) hes

/-- A run that ends in a phase only one event leads to, ends with that event. -/
theorem run_ends_with {d : BusEvent} (hd : ∀ c e, BusPhase.Move c e b' → e = d) (hne : b ≠ b')
    (h : es.foldlM BusPhase.after b = some b') : ∃ es', es = es' ++ [d] := by
  obtain rfl | ⟨es', e, rfl⟩ := List.eq_nil_or_concat' es
  · cases h; exact absurd rfl hne
  · obtain ⟨c, -, hlast⟩ := run_append.1 h
    obtain ⟨c', hmove, hnil⟩ := run_cons.1 hlast
    cases hnil
    exact ⟨es', by rw [hd c e hmove]⟩

theorem move_to_ready {c : BusPhase} (h : c.Move e .ready) : e = .rdy true := by
  generalize hr : BusPhase.ready = r at h
  cases h with
  | sample v _ => cases v <;> cases hr; rfl
  | dataSample v => cases v <;> cases hr
  | fall l => cases l <;> cases hr
  | pins | spi | reset | delay | frameByte | frameEnd | dataByte | dataEnd => cases hr

theorem move_to_dataReady {c : BusPhase} (h : c.Move e .dataReady) : e = .rdy true := by
  generalize hr : BusPhase.dataReady = r at h
  cases h with
  | dataSample v => cases v <;> cases hr; rfl
  | sample v _ => cases v <;> cases hr
  | fall l => cases l <;> cases hr
  | pins | spi | reset | delay | frameByte | frameEnd | dataByte | dataEnd => cases hr

/-- A falling edge opens its bracket, where none was open. -/
theorem move_of_fall (h : b.Move (.sel l false) b') : b = .ready ∧ b' = .opened l := by
  cases h
  exact ⟨rfl, rfl⟩

theorem opened_inside (l : Line) : (BusPhase.opened l).inside l = true := by cases l <;> rfl

/-- In a trace that keeps the protocol, a falling edge stands where the phase is `ready`, and what follows runs from the
beginning of its bracket. -/
theorem run_around_fall {xs ys : List BusEvent} (h : busPhase (xs ++ .sel l false :: ys) = some b) :
    xs.foldlM BusPhase.after .closed = some .ready ∧ ys.foldlM BusPhase.after (.opened l) = some b := by
  rw [busPhase_eq_foldlM] at h
  obtain ⟨c, hxs, hrest⟩ := run_append.1 h
  obtain ⟨_, hfall, hys⟩ := run_cons.1 hrest
  obtain ⟨rfl, rfl⟩ := move_of_fall hfall
  exact ⟨hxs, hys⟩

/-! ### What stands inside a bracket -/

/-- A run inside a `CS_CMD` bracket is a run of transfers. -/
theorem run_inCmd {n : Nat} (h : es.foldlM BusPhase.after (.inCmd n) = some b') (hes : BusEvent.sel .cmd true ∉ es) :
    b' = .inCmd (n + es.length) ∧ ∀ e ∈ es, ∃ o i, e = .xfer o i := by
  induction es generalizing n with
  | nil => cases h; exact ⟨rfl, by simp⟩
  | cons e es ih =>
    obtain ⟨c, hmove, hrun⟩ := run_cons.1 h
    obtain ⟨he, hes'⟩ := List.ne_and_not_mem_of_not_mem_cons hes
    cases hmove with
    | frameEnd => exact absurd rfl he
    | frameByte i _ _ =>
      obtain ⟨hb', hxfer⟩ := ih hrun hes'
      exact ⟨by rw [hb', List.length_cons, Nat.add_right_comm, Nat.add_assoc],
        List.forall_mem_cons.2 ⟨⟨_, i, rfl⟩, hxfer⟩⟩
    | sample _ hi | pins hi | spi hi | reset _ hi | delay _ hi => cases hi

/-- A whole `CS_CMD` bracket is four transfers, the first sending a command byte (R45). -/
theorem frame_of_run {rest : List BusEvent}
    (h : (es ++ BusEvent.sel .cmd true :: rest).foldlM BusPhase.after (.inCmd 0) = some b')
    (hes : BusEvent.sel .cmd true ∉ es) :
    ∃ o i o1 i1 o2 i2 o3 i3, es = [.xfer o i, .xfer o1 i1, .xfer o2 i2, .xfer o3 i3] ∧ (o = 0x02#8 ∨ o = 0x03#8) := by
  obtain ⟨c, hrun, hend⟩ := run_append.1 h
  obtain ⟨_, hmove, -⟩ := run_cons.1 hend
  obtain ⟨rfl, hxfer⟩ := run_inCmd hrun hes
  have hlen : es.length = 4 := by
    generalize hc : BusPhase.inCmd (0 + es.length) = c at hmove
    cases hmove with
    | frameEnd => injection hc with hn; omega
  match es, hlen with
  | [e0, e1, e2, e3], _ =>
    obtain ⟨o, i, rfl⟩ := hxfer e0 (by simp)
    obtain ⟨o1, i1, rfl⟩ := hxfer e1 (by simp)
    obtain ⟨o2, i2, rfl⟩ := hxfer e2 (by simp)
    obtain ⟨o3, i3, rfl⟩ := hxfer e3 (by simp)
    obtain ⟨_, hfirst, -⟩ := run_cons.1 hrun
    cases hfirst with
    | frameByte _ _ ho => exact ⟨o, i, o1, i1, o2, i2, o3, i3, rfl, ho rfl⟩

/-- An event inside a `CS_DATA` bracket is a sample, or a transfer directly after a sample of 1 (R45). -/
theorem BusPhase.Move.inside_data (h : b.Move e b') (hb : b.inside .data = true) (he : e ≠ .sel .data true) :
    (∃ v, e = .rdy v) ∨ (∃ o i, e = .xfer o i ∧ b = .dataReady) := by
  cases h with
  | dataSample v => exact .inl ⟨v, rfl⟩
  | dataByte o i => exact .inr ⟨o, i, rfl, rfl⟩
  | dataEnd => exact absurd rfl he
  | sample v _ => exact .inl ⟨v, rfl⟩
  | pins hi | spi hi | reset _ hi | delay _ hi => cases b <;> cases hi <;> cases hb
  | fall | frameByte | frameEnd => cases hb

/-- The events of a run inside a `CS_DATA` bracket. -/
theorem run_inside_data (h : es.foldlM BusPhase.after b = some b') (hb : b.inside .data = true)
    (hes : BusEvent.sel .data true ∉ es) : ∀ e ∈ es, (∃ v, e = .rdy v) ∨ ∃ o i, e = .xfer o i := by
  intro e he
  obtain ⟨xs, ys, rfl⟩ := List.append_of_mem he
  obtain ⟨c, hxs, hrest⟩ := run_append.1 h
  obtain ⟨_, hmove, -⟩ := run_cons.1 hrest
  have hc : c.inside .data = true := run_stays_inside hxs hb fun hx => hes (List.mem_append_left _ hx)
  obtain hrdy | ⟨o, i, hxfer, -⟩ := hmove.inside_data hc (fun hd => hes (hd ▸ he))
  · exact .inl hrdy
  · exact .inr ⟨o, i, hxfer⟩

/-- A transfer of a `CS_DATA` bracket stands directly after a sample of 1. -/
theorem ready_before_data_byte {xs ys : List BusEvent} {o i : Byte}
    (h : (xs ++ .xfer o i :: ys).foldlM BusPhase.after .inData = some b')
    (hes : BusEvent.sel .data true ∉ xs) : ∃ xs', xs = xs' ++ [.rdy true] := by
  obtain ⟨c, hxs, hrest⟩ := run_append.1 h
  obtain ⟨_, hmove, -⟩ := run_cons.1 hrest
  have hc : c.inside .data = true := run_stays_inside hxs rfl hes
  cases hmove with
  | dataByte => exact run_ends_with (fun _ _ => move_to_dataReady) (by simp) hxs
  | frameByte => cases hc

end Sys2Proof.Machine
end

section
/-! SUPPORT. The pseudocode that keeps the bus protocol, and what one engine step makes of the item at the head: the
events and items it leads to, an error or the completion. -/

namespace Sys2Proof.Machine

/-! ### Items and lists of items that stand where no bracket is open -/

/-- Items that run only where no bracket is open. -/
def Micro.outside : Micro → Bool
  | .sel _ _ | .xfer _ _ | .stream _ | .fetchByte | .sendByte _ | .receiveByte | .storeByte _ => false
  | _ => true

/-- Items that run only where no bracket is open, and need no more than that of what follows them: all but the gate,
after which a bracket may open, and the completion, after which nothing runs. -/
def Micro.between (m : Micro) : Bool :=
  match m with
  | .gate | .complete _ => false
  | m => m.outside

/-- Wherever no bracket is open, `ms` keeps the protocol and comes back to where no bracket is open. -/
def KeepsIdle (ms : List Micro) : Prop :=
  ∀ (b : BusPhase) (r : List Micro), b.idle = true → BusPhase.closed.allows r → b.allows (ms ++ r)

variable {b b' : BusPhase} {m : Micro} {ms r : List Micro} {es : List BusEvent}

theorem allows_of_between (hm : m.between = true) :
    b.allows (m :: r) ↔ b.idle = true ∧ BusPhase.closed.allows r := by
  cases m with
  | gate | complete _ | sel _ _ | xfer _ _ | stream _ | fetchByte | sendByte _ | receiveByte | storeByte _ => cases hm
  | _ => exact Iff.rfl

theorem idle_of_allows_outside (hm : m.outside = true) (h : b.allows (m :: r)) : b.idle = true := by
  cases m with
  | sel _ _ | xfer _ _ | stream _ | fetchByte | sendByte _ | receiveByte | storeByte _ => cases hm
  | complete _ => exact h
  | _ => exact h.1

/-- What keeps the protocol where the last event was no sample of 1 also keeps it where it was one. -/
theorem allows_of_closed (hb : b.idle = true) (h : BusPhase.closed.allows r) : b.allows r := by
  match r, h with
  | [], _ => exact hb
  | m :: r, h =>
    cases m with
    | complete _ => exact hb
    | sel l v => cases l <;> cases v <;> cases h.1
    | xfer _ _ =>
      obtain ⟨n, hn, -⟩ := h
      cases hn
    | stream _ | fetchByte | sendByte _ | receiveByte | storeByte _ => cases h.1
    | _ => exact ⟨hb, h.2⟩

/-- An item outside the brackets, before a list that keeps the protocol. -/
theorem KeepsIdle.cons (hm : m.outside = true) (h : KeepsIdle ms) : KeepsIdle (m :: ms) := by
  intro b r hb hr
  cases m with
  | sel _ _ | xfer _ _ | stream _ | fetchByte | sendByte _ | receiveByte | storeByte _ => cases hm
  | complete _ => exact hb
  | gate => exact ⟨hb, h .ready r rfl hr⟩
  | _ => exact ⟨hb, h .closed r rfl hr⟩

/-- A list of items outside the brackets keeps the protocol. -/
theorem keepsIdle_of_outside (h : ms.all Micro.outside = true) : KeepsIdle ms := by
  induction ms with
  | nil => exact fun _ _ hb hr => allows_of_closed hb hr
  | cons m ms ih =>
    obtain ⟨hm, hms⟩ := Bool.and_eq_true_iff.1 h
    exact (ih hms).cons hm

/-- A control frame with its gate (R141, R146). -/
theorem keepsIdle_frame {op b1 b2 b3 : Byte} {d1 d2 : Dest} (hop : op = 0x02#8 ∨ op = 0x03#8) :
    KeepsIdle [.gate, .sel .cmd false, .xfer op .discard, .xfer b1 .discard, .xfer b2 d1, .xfer b3 d2,
      .sel .cmd true] :=
  fun _ _ hb hr => ⟨hb, rfl, 0, rfl, by decide, fun _ => hop, 1, rfl, by decide, nofun, 2, rfl, by decide, nofun,
    3, rfl, by decide, nofun, rfl, hr⟩

/-- A streaming bracket with its gate, and the completion (R161, R166). -/
theorem keepsIdle_bracket (d : Dir) (w : Written) :
    KeepsIdle [.gate, .sel .data false, .stream d, .sel .data true, .complete w] :=
  fun _ _ hb _ => ⟨hb, rfl, rfl, rfl, rfl⟩

/-! ### What an item leads to -/

/-- An engine step at the item `m` that does not end the command appends `es` and puts `ms` in the item's place. -/
inductive Micro.Leads : Micro → List BusEvent → List Micro → Prop
  | compute {m : Micro} {ms : List Micro} : m.between = true → KeepsIdle ms → Leads m [] ms
  | cfgPins : Leads .cfgPins [.cfgPins] []
  | cfgSpi : Leads .cfgSpi [.cfgSpi] []
  | setReset (a : ResetDrive) : Leads (.setReset a) [.rst a] []
  | delay (ms : Nat) : Leads (.delay ms) [.dly ms] []
  | gateOpens : Leads .gate [.rdy true] []
  | gateLow : Leads .gate [.rdy false] [.polled, .gate]
  | sel (l : Line) (high : Bool) : Leads (.sel l high) [.sel l high] []
  | xfer (o i : Byte) (d : Dest) : Leads (.xfer o d) [.xfer o i] []
  | streamEnds (d : Dir) : Leads (.stream d) [] []
  | streamStops (d : Dir) : Leads (.stream d) [.rdy false] []
  | streamOut : Leads (.stream .out) [.rdy true] [.fetchByte, .stream .out]
  | streamIn : Leads (.stream .inward) [.rdy true] [.receiveByte, .stream .inward]
  | fetchByte (o : Byte) : Leads .fetchByte [] [.sendByte o]
  | sendByte (o i : Byte) : Leads (.sendByte o) [.xfer o i] []
  | receiveByte (o i : Byte) : Leads .receiveByte [.xfer o i] [.storeByte i]
  | storeByte (i : Byte) : Leads (.storeByte i) [] []

/-- The key fact of the bus invariant: where the pseudocode keeps the protocol, the events of an engine step are moves
of the automaton, and the pseudocode after it keeps the protocol from where they lead. -/
theorem Micro.Leads.keeps_protocol (h : m.Leads es ms) (ha : b.allows (m :: r)) :
    ∃ b', es.foldlM BusPhase.after b = some b' ∧ b'.allows (ms ++ r) := by
  cases h with
  | compute hm hms =>
    obtain ⟨hb, hr⟩ := (allows_of_between hm).1 ha
    exact ⟨b, rfl, hms b r hb hr⟩
  | cfgPins => exact ⟨.closed, (BusPhase.Move.pins ha.1).run, ha.2⟩
  | cfgSpi => exact ⟨.closed, (BusPhase.Move.spi ha.1).run, ha.2⟩
  | setReset a => exact ⟨.closed, (BusPhase.Move.reset a ha.1).run, ha.2⟩
  | delay ms => exact ⟨.closed, (BusPhase.Move.delay ms ha.1).run, ha.2⟩
  | gateOpens => exact ⟨.ready, (BusPhase.Move.sample true ha.1).run, ha.2⟩
  | gateLow => exact ⟨.closed, (BusPhase.Move.sample false ha.1).run, rfl, rfl, ha.2⟩
  | sel l high =>
    cases l <;> cases high <;> obtain ⟨rfl, hr⟩ := ha
    · exact ⟨.inCmd 0, (BusPhase.Move.fall .cmd).run, hr⟩
    · exact ⟨.closed, BusPhase.Move.frameEnd.run, hr⟩
    · exact ⟨.inData, (BusPhase.Move.fall .data).run, hr⟩
    · exact ⟨.closed, BusPhase.Move.dataEnd.run, hr⟩
  | xfer o i d =>
    obtain ⟨n, rfl, hn, ho, hr⟩ := ha
    exact ⟨.inCmd (n + 1), (BusPhase.Move.frameByte i hn ho).run, hr⟩
  | streamEnds d =>
    obtain ⟨rfl, hr⟩ := ha
    exact ⟨.inData, rfl, hr⟩
  | streamStops d =>
    obtain ⟨rfl, hr⟩ := ha
    exact ⟨.inData, (BusPhase.Move.dataSample false).run, hr⟩
  | streamOut | streamIn =>
    obtain ⟨rfl, hr⟩ := ha
    exact ⟨.dataReady, (BusPhase.Move.dataSample true).run, rfl, rfl, hr⟩
  | fetchByte o =>
    obtain ⟨rfl, hr⟩ := ha
    exact ⟨.dataReady, rfl, rfl, hr⟩
  | sendByte o i =>
    obtain ⟨rfl, hr⟩ := ha
    exact ⟨.inData, (BusPhase.Move.dataByte o i).run, hr⟩
  | receiveByte o i =>
    obtain ⟨rfl, hr⟩ := ha
    exact ⟨.inData, (BusPhase.Move.dataByte o i).run, rfl, hr⟩
  | storeByte i =>
    obtain ⟨rfl, hr⟩ := ha
    exact ⟨.inData, rfl, hr⟩

end Sys2Proof.Machine
end

section
/-! SUPPORT. Every engine step of a running command, said once: it goes on, it enters an error, or it completes. -/

namespace Sys2Proof.Machine

/-- What an engine step makes of `s`, whose pseudocode begins with `m`. The completion of a streaming read is put into
the pseudocode by the command word alone. -/
inductive State.Move (s : State) (m : Micro) : State → Prop
  | goesOn {es : List BusEvent} {ms : List Micro} {t : State} (leads : m.Leads es ms) (emits : s.Emits es t)
      (todo : t.todo = ms ++ s.todo.tail)
      (received : .complete .received ∈ ms → decodeCommand s.lCmd = .streamRead) : s.Move m t
  | fails {u : State} (hm : m.outside = true) (emits : s.Emits [] u) (e : ErrCode) (pos : Nat) :
      s.Move m (raise e pos u)
  | completes {w : Written} (hm : m = .complete w) : s.Move m (complete w s)

variable {s t u : State} {m : Micro} {r : List Micro}

namespace State.Move

theorem ite {c : Prop} [Decidable c] (htrue : s.Move m t) (hfalse : s.Move m u) : s.Move m (if c then t else u) := by
  split
  · exact htrue
  · exact hfalse

/-- Items laid out between the brackets by an internal computation. -/
theorem lays {ms : List Micro} (hm : m.between = true) (emits : s.Emits [] t) (todo : t.todo = ms ++ s.todo.tail)
    (keeps : KeepsIdle ms) (received : .complete .received ∉ ms) : s.Move m t :=
  .goesOn (.compute hm keeps) emits todo fun h => absurd h received

/-- Items put before the rest of the pseudocode. -/
theorem pushes {ms : List Micro} (hm : m.between = true) (hu : s.Emits [] u) (htodo : u.todo = s.todo.tail)
    (keeps : KeepsIdle ms) (received : .complete .received ∉ ms) : s.Move m (u.push ms) :=
  .lays hm (hu.then_computed rfl) (congrArg (ms ++ ·) htodo) keeps received

/-- A gate and items after it put before the rest of the pseudocode. -/
theorem gates {ms : List Micro} (hm : m.between = true) (hu : s.Emits [] u) (htodo : u.todo = s.todo.tail)
    (keeps : KeepsIdle (.gate :: ms)) (received : .complete .received ∉ ms) : s.Move m (u.gated ms) :=
  .lays hm (hu.then_computed rfl) (congrArg (.gate :: ms ++ ·) htodo) keeps (by simpa using received)

/-- A command or its refusal before INIT (R257). -/
theorem whenInitialized {k : State → State} (hm : m.outside = true) (hu : s.Emits [] u) (hk : s.Move m (k u)) :
    s.Move m (whenInitialized u k) := by
  obtain ⟨-, h⟩ | ⟨-, h⟩ := whenInitialized_cases u k <;> rw [h]
  · exact hk
  · exact .fails hm hu _ _

/-- A command or its refusal for its buffer operand (R276). -/
theorem whenFits {cap : Nat} {k : State → State} (hm : m.outside = true) (hu : s.Emits [] u) (hk : s.Move m (k u)) :
    s.Move m (whenFits cap u k) := by
  obtain ⟨-, h⟩ | ⟨-, h⟩ := whenFits_cases u cap k <;> rw [h]
  · exact hk
  · exact .fails hm hu _ _

end State.Move

/-! ### The command word -/

/-- What a command word decodes to (R91, R92). -/
theorem decodeCommand_cases (w : Byte) :
    decodeCommand w ∈ legalCommandsButInit ∨ decodeCommand w = .init ∨ illegalCommands (decodeCommand w) := by
  unfold decodeCommand
  split
  case h_17 =>
    refine .inr (.inr (.inr (.inr (.inr ⟨w, ?_⟩))))
    repeat' split
    all_goals simp
  all_goals simp [legalCommandsButInit, illegalCommands]

theorem startOf_illegal {i : Instr} (hi : illegalCommands i) : startOf i s = raise .illegalCommand 0 s := by
  obtain rfl | rfl | rfl | ⟨w, rfl | rfl | rfl | rfl⟩ := hi <;> rfl

/-- The first engine step of a command (R91). -/
theorem startOf_command_move (s : State) : s.Move .command (startOf (decodeCommand s.lCmd) s.pop) := by
  have hpop : s.Emits [] s.pop := .of_computed rfl
  have hxc : s.Emits [] { s.pop with xc := 0 } := .of_computed rfl
  generalize hi : decodeCommand s.lCmd = i
  have hcases := hi ▸ decodeCommand_cases s.lCmd
  cases i with
  | waitReady =>
    dsimp only [startOf]
    refine .whenInitialized rfl hpop ?_
    exact .gates rfl hpop rfl (keepsIdle_of_outside rfl) (by simp)
  | ctrlWrite | ctrlRead | ramWrite | ramRead | regSetBits | regClearBits =>
    dsimp only [startOf]
    refine .whenInitialized rfl hpop ?_
    exact .pushes rfl hpop rfl (keepsIdle_of_outside rfl) (by simp)
  | hardReset =>
    dsimp only [startOf]
    refine .whenInitialized rfl hpop ?_
    exact .pushes rfl hpop rfl (keepsIdle_of_outside rfl) (by simp [hardResetItems])
  | init =>
    dsimp only [startOf]
    exact .pushes rfl hpop rfl (keepsIdle_of_outside rfl) (by simp [hardResetItems])
  | streamWrite =>
    dsimp only [startOf]
    refine .whenInitialized rfl hxc (.whenFits rfl hxc ?_)
    exact .gates rfl hxc rfl (keepsIdle_bracket _ _) (by simp)
  | streamRead =>
    have hstart : s.Emits [] { s.pop with xc := 0, dstIn := [] } :=
      ⟨rfl, (List.append_nil _).symm, fun _ => rfl, id, fun _ => nil_wf⟩
    dsimp only [startOf]
    refine .whenInitialized rfl hstart (.whenFits rfl hstart ?_)
    exact .goesOn (.compute rfl (keepsIdle_bracket .inward .received)) (hstart.then_computed rfl) rfl fun _ => hi
  | loadPlugin =>
    dsimp only [startOf]
    refine .whenInitialized rfl hxc (.whenFits rfl hxc ?_)
    exact .lays (ms := [.pluginRecord, .complete .count]) rfl (hxc.then_computed rfl) rfl (keepsIdle_of_outside rfl)
      (by simp)
  | loadApp =>
    dsimp only [startOf]
    refine .whenInitialized rfl hxc (.whenFits rfl hxc (.ite (.fails rfl hxc _ _) ?_))
    exact .pushes rfl hxc rfl (keepsIdle_of_outside rfl) (by simp)
  | illegal00 | illegal0E | illegal0F | illegalHigh80 _ | illegalHigh40 _ | illegalHigh20 _ | illegalHigh10 _ =>
    exact .fails rfl hpop _ _
  | _ => simp [legalCommandsButInit, illegalCommands] at hcases

/-! ### The objects inside a command -/

/-- What the words of a plugin record decode to (R99). -/
theorem decodePlugin_cases {ws : List Half} {i : Instr} (h : decodePlugin ws = .ok i) :
    (∃ addr count, i = .pluginLit addr count) ∨ ∃ addr count value, i = .pluginRle addr count value := by
  unfold decodePlugin at h
  repeat' split at h
  all_goals cases h
  · exact .inr ⟨_, _, _, rfl⟩
  · exact .inl ⟨_, _, rfl⟩

/-- What the bytes of a marker decode to (R102). -/
theorem decodeMagic_eq {bs : List Byte} {i : Instr} (h : decodeMagic bs = .ok i) : i = .appMagic := by
  unfold decodeMagic at h
  repeat' split at h
  all_goals cases h
  rfl

/-- What a type byte above 3 decodes to (R104). -/
theorem decodeBadType_mem (t : Byte) : decodeBadType t ∈ badTypeRecords t := by
  unfold decodeBadType badTypeRecords
  repeat' split
  all_goals simp

/-- What the bytes of an application record decode to (R103, R104). -/
theorem decodeApp_cases {bs : List Byte} {i : Instr} (h : decodeApp bs = .ok i) :
    (∃ t, i ∈ badTypeRecords t) ∨ (∃ t len addr, i = dataRecordOf t len addr) ∨ ∃ len addr, i = .appExec len addr := by
  unfold decodeApp at h
  repeat' split at h
  all_goals cases h
  · exact .inl ⟨_, decodeBadType_mem _⟩
  · exact .inr (.inl ⟨0, _, _, rfl⟩)
  · exact .inr (.inl ⟨1, _, _, rfl⟩)
  · exact .inr (.inl ⟨2, _, _, rfl⟩)
  · exact .inr (.inr ⟨_, _, rfl⟩)

/-- The first engine step of a plugin record (R203, R204). -/
theorem startOf_plugin_move {got : List Half} {i : Instr} (hi : decodePlugin got = .ok i) :
    s.Move (.pluginWords got) (startOf i s.pop) := by
  obtain ⟨addr, count, rfl⟩ | ⟨addr, count, value, rfl⟩ := decodePlugin_cases hi
  · refine .ite (.fails rfl (.of_computed rfl) _ _) ?_
    exact .pushes rfl (.of_computed rfl) rfl (keepsIdle_of_outside rfl) (by simp)
  · refine .ite (.fails rfl (.of_computed rfl) _ _) ?_
    exact .pushes rfl (.of_computed rfl) rfl (keepsIdle_of_outside rfl) (by simp)

theorem badAppType_move {got : List Byte} (t : Byte) : s.Move (.appBytes got) (badAppType t s.pop) := by
  refine .ite ?_ (.fails rfl (.of_computed rfl) _ _)
  exact .pushes rfl (.of_computed rfl) rfl (keepsIdle_of_outside rfl) (by simp)

theorem appDataRecord_move {got : List Byte} (t : Byte) (len addr : Half) :
    s.Move (.appBytes got) (appDataRecord t len addr s.pop) := by
  refine .ite (.fails rfl (.of_computed rfl) _ _) ?_
  exact .pushes rfl (.of_computed rfl) rfl (keepsIdle_of_outside rfl) (by simp)

theorem startAppExec_move {got : List Byte} (len addr : Half) :
    s.Move (.appBytes got) (startAppExec len addr s.pop) := by
  refine .ite (.fails rfl (.of_computed rfl) _ _) ?_
  exact .pushes rfl (.of_computed rfl) rfl (keepsIdle_of_outside rfl) (by simp)

/-- The first engine step of an application record (R224-R228). -/
theorem startOf_app_move {got : List Byte} {i : Instr} (hi : decodeApp got = .ok i) :
    s.Move (.appBytes got) (startOf i s.pop) := by
  obtain ⟨t, ht⟩ | ⟨t, len, addr, rfl⟩ | ⟨len, addr, rfl⟩ := decodeApp_cases hi
  · simp only [badTypeRecords, List.mem_cons, List.not_mem_nil, or_false] at ht
    obtain rfl | rfl | rfl | rfl | rfl | rfl := ht <;> exact badAppType_move t
  · match t with
    | 0 | 1 | 2 => exact appDataRecord_move _ len addr
  · exact startAppExec_move len addr

/-! ### The loops -/

variable (s)

@[simp] theorem sampleReady_todo : (sampleReady s).2.todo = s.todo := rfl

theorem gateStep_move (h : s.todo = .gate :: r) : s.Move .gate (gateStep s) := by
  obtain ⟨hv, hstep⟩ | ⟨hv, hstep⟩ := gateStep_cases s <;> rw [hstep]
  · exact .goesOn .gateOpens ((hv ▸ sampleReady_emits s).then_computed rfl) rfl (by simp)
  · exact .goesOn .gateLow ((hv ▸ sampleReady_emits s).then_computed rfl) (by simp [h]) (by simp)

theorem pollStep_move : s.Move .polled (pollStep s) := by
  obtain ⟨-, hstep⟩ | ⟨-, hstep⟩ := pollStep_cases s <;> rw [hstep]
  · exact .fails rfl (.of_computed rfl) _ _
  · exact .lays (ms := []) rfl (.of_computed rfl) rfl (keepsIdle_of_outside rfl) (by simp)

/-- The item that follows a sample of 1 in a streaming bracket. -/
def Dir.byteItem : Dir → Micro
  | .out => .fetchByte
  | .inward => .receiveByte

/-- What the loop of a streaming bracket does: at the count or at a sample of 0 it ends, at a sample of 1 a byte
follows. -/
theorem streamStep_cases (d : Dir) :
    streamStep d s = s.pop ∨ (s.readyAt 0 = false ∧ streamStep d s = (sampleReady s).2.pop) ∨
    (s.readyAt 0 = true ∧ streamStep d s = (sampleReady s).2.push [d.byteItem]) := by
  by_cases hx : s.xc < s.len
  · cases hv : s.readyAt 0 with
    | false => simp [streamStep, hx, hv]
    | true => cases d <;> simp [streamStep, hx, hv, Dir.byteItem]
  · exact .inl (if_neg hx)

theorem streamStep_move {d : Dir} (h : s.todo = .stream d :: r) : s.Move (.stream d) (streamStep d s) := by
  obtain hstep | ⟨hv, hstep⟩ | ⟨hv, hstep⟩ := streamStep_cases s d <;> rw [hstep]
  · exact .goesOn (.streamEnds d) (.of_computed rfl) rfl (by simp)
  · exact .goesOn (.streamStops d) ((hv ▸ sampleReady_emits s).then_computed rfl) rfl (by simp)
  · cases d with
    | out =>
      exact .goesOn .streamOut ((hv ▸ sampleReady_emits s).then_computed rfl) (by simp [h, Dir.byteItem]) (by simp)
    | inward =>
      exact .goesOn .streamIn ((hv ▸ sampleReady_emits s).then_computed rfl) (by simp [h, Dir.byteItem]) (by simp)

/-- Reading a source byte and laying out what is done with it. -/
theorem srcByte_move {m : Micro} (hm : m.between = true) {ms : List Micro} (i : Nat) (hms : ms.all Micro.outside = true)
    (hreceived : .complete .received ∉ ms) : s.Move m ((srcByte i s).2.pop.push ms) :=
  .pushes hm ((srcByte_emits s i).then_computed rfl) (congrArg List.tail (srcByte_todo s i)) (keepsIdle_of_outside hms)
    hreceived

theorem srcWord_move {m : Micro} (hm : m.between = true) {ms : List Micro} (i : Nat) (hms : ms.all Micro.outside = true)
    (hreceived : .complete .received ∉ ms) : s.Move m ((srcWord i s).2.pop.push ms) :=
  .pushes hm ((srcWord_emits s i).then_computed rfl) (congrArg List.tail (srcWord_todo s i)) (keepsIdle_of_outside hms)
    hreceived

/-- Leaving an item between the brackets behind. -/
theorem leaves_move {m : Micro} (hm : m.between = true) {t : State} (ht : t = s.withComputed t)
    (htodo : t.todo = s.todo.tail) : s.Move m t :=
  .lays (ms := []) hm (.of_computed ht) htodo (keepsIdle_of_outside rfl) (by simp)

/-- A RAM-data write laid out, with the loop item after it. -/
theorem dataWrite_move {m again : Micro} (hm : m.between = true) {u : State} (v : Half) (hu : s.Emits [] u)
    (htodo : u.todo = s.todo) (hagain : again.outside = true) (hreceived : again ≠ .complete .received) :
    s.Move m (dataWrite v again u) :=
  .lays (ms := [.writeFrame u.params.regWram v, .countData, again]) hm (hu.then_computed rfl)
    (by simp [dataWrite, htodo]) ((((keepsIdle_of_outside rfl).cons hagain).cons rfl).cons rfl)
    (by simp [hreceived.symm])

/-- What an engine step makes of the item at the head, item by item. -/
theorem engineStep_move {m : Micro} (h : s.todo = m :: r) : s.Move m (engineStep s) := by
  cases m with
  | command => rw [engineStep_command h]; exact startOf_command_move s
  | gate => rw [engineStep_gate h]; exact gateStep_move s h
  | polled => rw [engineStep_polled h]; exact pollStep_move s
  | writeFrame reg v =>
    rw [engineStep_writeFrame h]
    exact .gates rfl (.of_computed rfl) rfl (keepsIdle_frame (.inl rfl)) (by simp)
  | readFrame reg =>
    rw [engineStep_readFrame h]
    exact .gates rfl (.of_computed rfl) rfl (keepsIdle_frame (.inr rfl)) (by simp)
  | sel l high =>
    rw [engineStep_sel h]
    exact .goesOn (.sel l high) (.of_start rfl (driveSelect_emits s.pop l high)) (driveSelect_todo s.pop l high)
      (by simp)
  | xfer b d =>
    rw [engineStep_xfer h]
    have hxfer : s.Emits _ (transfer b s.pop).2 := .of_start rfl (transfer_emits s.pop b)
    exact .goesOn (.xfer b _ d) (hxfer.then_computed (keepByte_computed _ d _)) (keepByte_todo _ d _) (by simp)
  | stream d => rw [engineStep_stream h]; exact streamStep_move s h
  | fetchByte =>
    rw [engineStep_fetchByte h]
    exact .goesOn (.fetchByte (srcByte s.xc s).1) ((srcByte_emits s _).then_computed rfl)
      (by simp [fetchStep]) (by simp)
  | sendByte b =>
    rw [engineStep_sendByte h]
    have hxfer : s.Emits _ (transfer b s.pop).2 := .of_start rfl (transfer_emits s.pop b)
    exact .goesOn (.sendByte b _) (hxfer.then_computed rfl) rfl (by simp)
  | receiveByte =>
    rw [engineStep_receiveByte h]
    have hxfer : s.Emits _ (transfer 0xFF s.pop).2 := .of_start rfl (transfer_emits s.pop 0xFF)
    exact .goesOn (.receiveByte _ _) (hxfer.then_computed rfl) rfl (by simp)
  | storeByte b =>
    rw [engineStep_storeByte h]
    exact .goesOn (.storeByte b) (.of_start rfl (storeDst_emits { s.pop with xc := s.xc + 1 } s.xc b)) rfl (by simp)
  | cfgPins =>
    rw [engineStep_cfgPins h]
    exact .goesOn .cfgPins (.of_start rfl (configurePins_emits s.pop)) rfl (by simp)
  | cfgSpi =>
    rw [engineStep_cfgSpi h]
    exact .goesOn .cfgSpi (.of_start rfl (configureSpi_emits s.pop)) rfl (by simp)
  | setReset a =>
    rw [engineStep_setReset h]
    exact .goesOn (.setReset a) (.of_start rfl (driveReset_emits s.pop a)) rfl (by simp)
  | delay ms =>
    rw [engineStep_delay h]
    exact .goesOn (.delay ms) (.of_start rfl (delayFor_emits s.pop ms)) rfl (by simp)
  | setInitDone =>
    rw [engineStep_setInitDone h]
    exact .lays (ms := []) rfl ⟨rfl, (List.append_nil _).symm, fun _ => rfl, fun _ => rfl, id⟩ rfl
      (keepsIdle_of_outside rfl) (by simp)
  | modify op =>
    rw [engineStep_modify h]
    exact .pushes rfl (.of_computed rfl) rfl (keepsIdle_of_outside rfl) (by simp)
  | magicBytes got =>
    obtain ⟨-, hstep⟩ | ⟨-, ⟨i, hi, hstep⟩ | ⟨e, -, hstep⟩⟩ := engineStep_magicBytes h <;> rw [hstep]
    · exact srcByte_move s rfl _ rfl (by simp)
    · obtain rfl := decodeMagic_eq hi
      exact leaves_move s rfl rfl rfl
    · exact .fails rfl (.of_computed rfl) _ _
  | appRecord =>
    rw [engineStep_appRecord h]
    refine .ite (leaves_move s rfl rfl rfl) ?_
    exact .pushes rfl (.of_computed rfl) rfl (keepsIdle_of_outside rfl) (by simp)
  | appBytes got =>
    obtain ⟨-, hstep⟩ | ⟨-, ⟨i, hi, hstep⟩ | ⟨e, -, hstep⟩⟩ := engineStep_appBytes h <;> rw [hstep]
    · exact srcByte_move s rfl _ rfl (by simp)
    · exact startOf_app_move hi
    · exact .fails rfl (.of_computed rfl) _ _
  | pluginRecord =>
    rw [engineStep_pluginRecord h]
    refine .ite (leaves_move s rfl rfl rfl) (.ite (.fails rfl (.of_computed rfl) _ _) ?_)
    exact .pushes rfl (.of_computed rfl) rfl (keepsIdle_of_outside rfl) (by simp)
  | pluginWords got =>
    obtain ⟨-, hstep⟩ | ⟨-, ⟨i, hi, hstep⟩ | ⟨e, -, hstep⟩⟩ := engineStep_pluginWords h <;> rw [hstep]
    · exact srcWord_move s rfl _ rfl (by simp)
    · exact startOf_plugin_move hi
    · exact .fails rfl (.of_computed rfl) _ _
  | rleData j =>
    rw [engineStep_rleData h]
    exact .ite (dataWrite_move s rfl _ (.of_computed rfl) rfl rfl (by simp)) (leaves_move s rfl rfl rfl)
  | litData j =>
    rw [engineStep_litData h]
    exact .ite (dataWrite_move s rfl _ (srcWord_emits s _) (srcWord_todo s _) rfl (by simp)) (leaves_move s rfl rfl rfl)
  | appData j =>
    rw [engineStep_appData h]
    exact .ite (srcByte_move s rfl _ rfl (by simp)) (leaves_move s rfl rfl rfl)
  | appLow j b =>
    rw [engineStep_appLow h]
    exact dataWrite_move s rfl _ ((srcByte_emits s _).then_computed rfl) (srcByte_todo s _) rfl (by simp)
  | countData => rw [engineStep_countData h]; exact leaves_move s rfl rfl rfl
  | advance n => rw [engineStep_advance h]; exact leaves_move s rfl rfl rfl
  | complete w => rw [engineStep_complete h]; exact .completes rfl

end Sys2Proof.Machine
end

section
/-! SUPPORT. What a whole step can do: host accesses said once, and the rule that derives what every step keeps from
what every host access and every engine step keeps. -/

namespace Sys2Proof.Machine

variable {s t : State}

/-! ### The engine -/

/-- A running engine step keeps `P` where each of its three kinds does; with no command there is nothing to do. -/
theorem engineStep_keeps {P : State → Prop} (hs : P s)
    (hmove : ∀ m r, s.todo = m :: r → ∀ t, s.Move m t → P t) : P (engineStep s) := by
  cases h : s.todo with
  | nil => rwa [engineStep_idle h]
  | cons m r => exact hmove m r h _ (engineStep_move s h)

/-- The engine step where no object is met is the item's own step. -/
theorem engineStep_of_meet_micro {m : Micro} {r : List Micro} (htodo : s.todo = m :: r) (h : meet s = .micro) :
    engineStep s = microStep m s := by
  simp [engineStep, htodo, h]

/-- One engine step more, whether a command runs or not. -/
theorem runEngine_engineStep (n : Nat) (s : State) : runEngine n (engineStep s) = runEngine (n + 1) s := by
  by_cases h : s.todo = []
  · rw [engineStep_idle h, runEngine_idle _ h, runEngine_idle _ h]
  · exact (runEngine_succ n h).symm

/-- A step is one access of the host, or engine steps on the state with its scheduling fields and the host's read record
moved on. -/
theorem step_cases_runEngine (h : step s = .next t) :
    (∃ a rest, s.agenda = .host a :: rest ∧ hostAccess a { s with agenda := rest } = .next t) ∨
    (∃ ag g rs k, t = runEngine k { s with agenda := ag, grant := g, reads := rs }) := by
  obtain ha | ⟨ag, g, rs, rfl | ⟨n, rfl⟩⟩ := step_cases h
  · exact .inl ha
  · exact .inr ⟨ag, g, rs, 0, rfl⟩
  · exact .inr ⟨ag, g, rs, n + 1, runEngine_engineStep n _⟩

/-- What scheduling, every host access and every engine step keep, every step keeps. -/
theorem step_preserves {P : State → Prop}
    (hsched : ∀ u ag g rs, P u → P { u with agenda := ag, grant := g, reads := rs })
    (hhost : ∀ a u v, P u → hostAccess a u = .next v → P v) (hengine : ∀ u, P u → P (engineStep u))
    (hs : P s) (h : step s = .next t) : P t := by
  obtain ⟨a, rest, -, ha⟩ | ⟨ag, g, rs, k, rfl⟩ := step_cases_runEngine h
  · exact hhost a _ t (hsched s rest s.grant s.reads hs) ha
  · exact runEngine_preserves hengine k (hsched s ag g rs hs)

/-! ### The host -/

/-- `s` with the operand registers, the buffers and the host's record taken from `t`. -/
def State.withHostData (s t : State) : State :=
  { s with
    argReg := t.argReg, argA := t.argA, argB := t.argB, bufLen := t.bufLen
    src := t.src, srcw := t.srcw, dst := t.dst, srcOld := t.srcOld, srcwOld := t.srcwOld
    freeCount := t.freeCount, reads := t.reads }

/-- What a host access can do: write `CMD`, or move data in the operand registers, the buffers and its own record, which
keeps the canonical form. -/
theorem hostAccess_effect {a : HostAct} (h : hostAccess a s = .next t) :
    (∃ v, a = .write 0 v ∧ t = writeCmd (v.extractLsb' 0 8) s) ∨
    (t = s.withHostData t ∧ (s.memInv → t.memInv)) := by
  cases a with
  | write n v =>
    cases h
    unfold hostWrite
    split
    · exact .inl ⟨v, rfl, rfl⟩
    all_goals exact .inr ⟨rfl, id⟩
  | read n =>
    cases h
    exact .inr ⟨rfl, id⟩
  | writeSrc i b =>
    simp only [hostAccess] at h
    split at h <;> cases h
    exact .inr ⟨rfl, fun ⟨hsrc, hrest⟩ => ⟨writeBuffer_wf i b hsrc, hrest⟩⟩
  | writeSrcw i w =>
    simp only [hostAccess] at h
    split at h <;> cases h
    exact .inr ⟨rfl, fun ⟨hsrc, hsrcw, hrest⟩ => ⟨hsrc, writeBuffer_wf i w hsrcw, hrest⟩⟩
  | writeDst i b =>
    simp only [hostAccess, hostWriteDst] at h
    split at h <;> cases h
    split <;> exact .inr ⟨rfl, fun ⟨hsrc, hsrcw, hdst, hin⟩ => ⟨hsrc, hsrcw, writeBuffer_wf i _ hdst, hin⟩⟩
  | readDst i =>
    simp only [hostAccess, hostReadDst] at h
    split at h <;> cases h
    split <;> exact .inr ⟨rfl, id⟩

/-- What a write of `CMD` does: it is accepted while idle, and sets OVR while a command runs (R27). -/
theorem writeCmd_cases (w : Byte) (s : State) :
    (s.todo = [] ∧ writeCmd w s = accept w s) ∨ (s.todo ≠ [] ∧ writeCmd w s = { s with ovr := true }) := by
  by_cases h : s.todo = []
  · exact .inl ⟨h, by simp [writeCmd, State.busy, h]⟩
  · exact .inr ⟨h, by simp [writeCmd, busy_iff.2 h]⟩

/-- A host access is an accept, an overrun, or a move of data. -/
theorem hostAccess_inv {a : HostAct} (h : hostAccess a s = .next t) :
    (∃ v, a = .write 0 v ∧ s.todo = [] ∧ t = accept (v.extractLsb' 0 8) s) ∨
    (s.todo ≠ [] ∧ t = { s with ovr := true }) ∨ (t = s.withHostData t ∧ (s.memInv → t.memInv)) := by
  obtain ⟨v, rfl, rfl⟩ | hdata := hostAccess_effect h
  · obtain ⟨hs, hw⟩ | ⟨hs, hw⟩ := writeCmd_cases (v.extractLsb' 0 8) s
    · exact .inl ⟨v, rfl, hs, hw⟩
    · exact .inr (.inl ⟨hs, hw⟩)
  · exact .inr (.inr hdata)

/-- A step in the host's turn is the host's access. -/
theorem step_of_host {a : HostAct} {rest : List Turn} (h : s.agenda = .host a :: rest) :
    step s = hostAccess a { s with agenda := rest } := by
  simp [step, h]

/-- The low bits of a written value, in the two spellings of the model (R24). -/
theorem extractLsb'_zero_eq_truncate {n : Nat} (v : BitVec n) (w : Nat) : v.extractLsb' 0 w = v.truncate w :=
  BitVec.eq_of_toNat_eq (by simp)

/-! ### What the engine leaves alone -/

/-- The fields no engine step writes. -/
structure State.SameForEngine (s t : State) : Prop where
  lCmd : t.lCmd = s.lCmd
  lReg : t.lReg = s.lReg
  lA : t.lA = s.lA
  lB : t.lB = s.lB
  lLen : t.lLen = s.lLen
  ovr : t.ovr = s.ovr
  src : t.src = s.src
  srcw : t.srcw = s.srcw
  agenda : t.agenda = s.agenda
  grant : t.grant = s.grant
  reads : t.reads = s.reads

theorem State.SameForEngine.refl (s : State) : s.SameForEngine s :=
  ⟨rfl, rfl, rfl, rfl, rfl, rfl, rfl, rfl, rfl, rfl, rfl⟩

theorem State.SameForEngine.trans {u : State} (hst : s.SameForEngine t) (htu : t.SameForEngine u) :
    s.SameForEngine u where
  lCmd := htu.lCmd.trans hst.lCmd
  lReg := htu.lReg.trans hst.lReg
  lA := htu.lA.trans hst.lA
  lB := htu.lB.trans hst.lB
  lLen := htu.lLen.trans hst.lLen
  ovr := htu.ovr.trans hst.ovr
  src := htu.src.trans hst.src
  srcw := htu.srcw.trans hst.srcw
  agenda := htu.agenda.trans hst.agenda
  grant := htu.grant.trans hst.grant
  reads := htu.reads.trans hst.reads

theorem State.Emits.sameForEngine {es : List BusEvent} (h : s.Emits es t) : s.SameForEngine t := by
  rw [h.frame]
  exact ⟨rfl, rfl, rfl, rfl, rfl, rfl, rfl, rfl, rfl, rfl, rfl⟩

theorem raise_sameForEngine (s : State) (e : ErrCode) (pos : Nat) : s.SameForEngine (raise e pos s) :=
  ⟨rfl, rfl, rfl, rfl, rfl, rfl, rfl, rfl, rfl, rfl, rfl⟩

theorem complete_sameForEngine (s : State) (w : Written) : s.SameForEngine (complete w s) := by
  cases w <;> exact ⟨rfl, rfl, rfl, rfl, rfl, rfl, rfl, rfl, rfl, rfl, rfl⟩

theorem engineStep_sameForEngine (s : State) : s.SameForEngine (engineStep s) := by
  refine engineStep_keeps (P := s.SameForEngine) (.refl s) fun m r _ t hmove => ?_
  cases hmove with
  | goesOn _ emits _ _ => exact emits.sameForEngine
  | fails _ emits e pos => exact emits.sameForEngine.trans (raise_sameForEngine _ e pos)
  | completes _ => exact complete_sameForEngine s _

theorem runEngine_sameForEngine (n : Nat) (s : State) : s.SameForEngine (runEngine n s) :=
  runEngine_preserves (fun u hu => hu.trans (engineStep_sameForEngine u)) n (.refl s)

end Sys2Proof.Machine
end

section
/-! SUPPORT. The bus invariant over the engine's moves and the host's accesses. -/

namespace Sys2Proof.Machine

variable {s t : State} {b : BusPhase}

/-- The lines agree with a phase when each is low exactly while its bracket is open. -/
theorem linesAgree_iff : linesAgree b s ↔ ∀ l, s.select l = .low ↔ b.inside l = true := by
  have hcmd : b.inside .cmd = true ↔ ∃ n, b = .inCmd n := by cases b <;> simp [BusPhase.inside]
  have hdata : b.inside .data = true ↔ b = .inData ∨ b = .dataReady := by cases b <;> simp [BusPhase.inside]
  constructor
  · rintro ⟨hc, hd⟩ (_ | _)
    · exact hc.trans hcmd.symm
    · exact hd.trans hdata.symm
  · exact fun h => ⟨(h .cmd).trans hcmd, (h .data).trans hdata⟩

/-- Where no event is appended and no line driven, the pseudocode alone decides. -/
theorem busInv_of_same (h : s.busInv) (htrace : t.trace = s.trace) (hselect : ∀ l, t.select l = s.select l)
    (htodo : ∀ b : BusPhase, b.allows s.todo → b.allows t.todo) : t.busInv := by
  obtain ⟨b, hb, hallows, hlines⟩ := h
  refine ⟨b, htrace ▸ hb, htodo b hallows, linesAgree_iff.2 fun l => ?_⟩
  rw [hselect l]
  exact linesAgree_iff.1 hlines l

theorem complete_trace (s : State) (w : Written) : (complete w s).trace = s.trace := by cases w <;> rfl

theorem complete_select (s : State) (w : Written) (l : Line) : (complete w s).select l = s.select l := by
  cases w <;> cases l <;> rfl

theorem raise_select (s : State) (e : ErrCode) (pos : Nat) (l : Line) : (raise e pos s).select l = s.select l := by
  cases l <;> rfl

/-- An engine step keeps the bus invariant. -/
theorem engineStep_busInv (h : s.busInv) : (engineStep s).busInv := by
  refine engineStep_keeps h fun m r htodo t hmove => ?_
  cases hmove with
  | goesOn leads emits todo _ =>
    obtain ⟨b, hb, hallows, hlines⟩ := h
    obtain ⟨b', hrun, hallows'⟩ := leads.keeps_protocol (htodo ▸ hallows)
    refine ⟨b', ?_, ?_, linesAgree_iff.2 fun l => ?_⟩
    · rw [emits.trace, busPhase_append _ _ hb, hrun]
    · rwa [todo, htodo]
    · rw [emits.select]
      exact level_of_run hrun (linesAgree_iff.1 hlines l)
  | fails hm emits e pos =>
    refine busInv_of_same h (emits.trace.trans (List.append_nil _)) (fun l => ?_) (fun b hb => ?_)
    · rw [raise_select]
      exact emits.select l
    · exact idle_of_allows_outside hm (htodo ▸ hb)
  | completes hm =>
    refine busInv_of_same h (complete_trace s _) (complete_select s _) (fun b hb => ?_)
    rw [complete_todo]
    exact idle_of_allows_outside (hm ▸ rfl) (htodo ▸ hb)

/-- A host access keeps the bus invariant: it drives nothing, and an accept puts a command where none ran. -/
theorem hostAccess_busInv {a : HostAct} (hs : s.busInv) (h : hostAccess a s = .next t) : t.busInv := by
  obtain ⟨v, -, hidle, rfl⟩ | ⟨-, rfl⟩ | ⟨hdata, -⟩ := hostAccess_inv h
  · refine busInv_of_same hs rfl (fun l => by cases l <;> rfl) (fun b hb => ?_)
    rw [hidle] at hb
    exact ⟨hb, rfl⟩
  · exact busInv_of_same hs rfl (fun l => by cases l <;> rfl) (fun _ => id)
  · rw [hdata]
    exact busInv_of_same hs rfl (fun l => by cases l <;> rfl) (fun _ => id)

/-- Where no command runs, no bracket is open. -/
theorem idle_of_busInv (hs : s.busInv) (hidle : s.todo = []) (l : Line) : s.select l ≠ .low := by
  obtain ⟨b, -, hallows, hlines⟩ := hs
  rw [hidle] at hallows
  intro hlow
  have hin := (linesAgree_iff.1 hlines l).1 hlow
  cases b <;> cases hallows <;> cases hin

/-- The two lines are never low together (R43). -/
theorem select_not_both (hs : s.busInv) : ¬ (s.csCmd = .low ∧ s.csData = .low) := by
  obtain ⟨b, -, -, hcmd, hdata⟩ := hs
  rintro ⟨hc, hd⟩
  obtain ⟨n, rfl⟩ := hcmd.1 hc
  obtain h | h := hdata.1 hd <;> cases h

end Sys2Proof.Machine
end

section
/-! SUPPORT. What a step keeps besides the bus protocol: INIT_DONE, the completion registers, the memories and the state
before INIT. -/

namespace Sys2Proof.Machine

variable {s t u : State}

/-! ### INIT_DONE (R34) -/

theorem complete_initDone (s : State) (w : Written) : (complete w s).initDone = s.initDone := by cases w <;> rfl

theorem engineStep_initDone (h : s.initDone = true) : (engineStep s).initDone = true := by
  refine engineStep_keeps (P := fun t => t.initDone = true) h fun m r _ t hmove => ?_
  cases hmove with
  | goesOn _ emits _ _ => exact emits.initDone h
  | fails _ emits e pos => exact emits.initDone h
  | completes _ => rwa [complete_initDone]

theorem runEngine_initDone (n : Nat) (h : s.initDone = true) : (runEngine n s).initDone = true :=
  runEngine_preserves (P := fun t => t.initDone = true) (fun _ => engineStep_initDone) n h

theorem hostAccess_initDone {a : HostAct} (h : hostAccess a s = .next t) : t.initDone = s.initDone := by
  obtain ⟨v, -, -, rfl⟩ | ⟨-, rfl⟩ | ⟨hdata, -⟩ := hostAccess_inv h
  · rfl
  · rfl
  · rw [hdata]
    rfl

theorem step_initDone (h : step s = .next t) (hs : s.initDone = true) : t.initDone = true :=
  step_preserves (P := fun t => t.initDone = true) (fun _ _ _ _ => id)
    (fun _ _ _ hu ha => (hostAccess_initDone ha).trans hu) (fun _ => engineStep_initDone) hs h

/-- The three engine steps of INIT after its first: pins, channel, INIT_DONE (R251). -/
theorem runEngine_startInit (s : State) : (runEngine 3 (startInit s)).initDone = true := by
  rw [runEngine_succ _ (List.cons_ne_nil _ _), engineStep_cfgPins rfl,
    runEngine_succ _ (List.cons_ne_nil _ _), engineStep_cfgSpi rfl,
    runEngine_succ _ (List.cons_ne_nil _ _), engineStep_setInitDone rfl, runEngine_zero]

/-- A legal command other than INIT is refused before INIT, its count and the bytes received set to nothing at most
(R257). -/
theorem startOf_before_init {i : Instr} (hi : i ∈ legalCommandsButInit) (h : s.initDone = false) :
    ∃ n d, startOf i s = raise .notInitialized 0 { s with xc := n, dstIn := d } := by
  have hnot : ¬ s.initDone = true := by simp [h]
  cases i with
  | waitReady | ctrlWrite | ctrlRead | ramWrite | ramRead | regSetBits | regClearBits | hardReset =>
    exact ⟨s.xc, s.dstIn, if_neg hnot⟩
  | streamWrite | loadPlugin | loadApp => exact ⟨0, s.dstIn, if_neg hnot⟩
  | streamRead => exact ⟨0, [], if_neg hnot⟩
  | _ => simp [legalCommandsButInit] at hi

/-! ### The state before INIT (R46, R250, R302) -/

/-- An engine step keeps the state before INIT: any command but INIT is refused, and INIT's first steps are the
trace. -/
theorem engineStep_preInitInv (h : s.preInitInv) : (engineStep s).preInitInv := by
  cases hinit : s.initDone with
  | true =>
    intro hfalse
    rw [engineStep_initDone hinit] at hfalse
    cases hfalse
  | false =>
    obtain ⟨htrace, hcmd, hdata, hreset, hspi, hcfg, htodo | htodo | ⟨r, htodo⟩⟩ | ⟨htrace, hcfg, r, htodo⟩ |
      ⟨htrace, hcfg, r, htodo⟩ := h hinit
    · rwa [engineStep_idle htodo]
    · rw [engineStep_command htodo]
      obtain hi | hi | hi := decodeCommand_cases s.lCmd
      · obtain ⟨n, d, hstart⟩ := startOf_before_init (s := s.pop) hi hinit
        rw [hstart]
        exact fun _ => .inl ⟨htrace, hcmd, hdata, hreset, hspi, hcfg, .inl rfl⟩
      · rw [hi]
        exact fun _ => .inl ⟨htrace, hcmd, hdata, hreset, hspi, hcfg, .inr (.inr ⟨_, rfl⟩)⟩
      · rw [startOf_illegal hi]
        exact fun _ => .inl ⟨htrace, hcmd, hdata, hreset, hspi, hcfg, .inl rfl⟩
    · rw [engineStep_cfgPins htodo]
      exact fun _ => .inr (.inl ⟨congrArg (· ++ [BusEvent.cfgPins]) htrace, hcfg, r, congrArg List.tail htodo⟩)
    · rw [engineStep_cfgSpi htodo]
      exact fun _ => .inr (.inr ⟨congrArg (· ++ [BusEvent.cfgSpi]) htrace, hcfg, r, congrArg List.tail htodo⟩)
    · rw [engineStep_setInitDone htodo]
      exact nofun

/-- A host access keeps the state before INIT: an accept puts a command where none ran. -/
theorem hostAccess_preInitInv {a : HostAct} (hs : s.preInitInv) (h : hostAccess a s = .next t) : t.preInitInv := by
  obtain ⟨v, -, hidle, rfl⟩ | ⟨-, rfl⟩ | ⟨hdata, -⟩ := hostAccess_inv h
  · intro hinit
    obtain ⟨htrace, hcmd, hdata, hreset, hspi, hcfg, -⟩ | ⟨-, -, r, htodo⟩ | ⟨-, -, r, htodo⟩ := hs hinit
    · exact .inl ⟨htrace, hcmd, hdata, hreset, hspi, hcfg, .inr (.inl rfl)⟩
    · simp [hidle] at htodo
    · simp [hidle] at htodo
  · exact hs
  · rw [hdata]
    exact hs

/-! ### The completion registers (R26, R42, R78) -/

/-- The fields that the end of a command writes. -/
structure State.SameResults (s t : State) : Prop where
  err : t.err = s.err
  result : t.result = s.result
  xcount : t.xcount = s.xcount
  errPos : t.errPos = s.errPos
  completions : t.completions = s.completions
  dst : t.dst = s.dst

theorem State.Emits.sameResults {es : List BusEvent} (h : s.Emits es t) : s.SameResults t := by
  rw [h.frame]
  exact ⟨rfl, rfl, rfl, rfl, rfl, rfl⟩

theorem State.SameResults.trans (hst : s.SameResults t) (htu : t.SameResults u) : s.SameResults u where
  err := htu.err.trans hst.err
  result := htu.result.trans hst.result
  xcount := htu.xcount.trans hst.xcount
  errPos := htu.errPos.trans hst.errPos
  completions := htu.completions.trans hst.completions
  dst := htu.dst.trans hst.dst

/-- An engine step that leaves the command running leaves what its end writes. -/
theorem engineStep_sameResults (hrun : (engineStep s).todo ≠ []) : s.SameResults (engineStep s) := by
  refine engineStep_keeps (P := fun t => t.todo ≠ [] → s.SameResults t) (fun _ => ⟨rfl, rfl, rfl, rfl, rfl, rfl⟩)
    (fun m r _ t hmove hrun => ?_) hrun
  cases hmove with
  | goesOn _ emits _ _ => exact emits.sameResults
  | fails => exact absurd rfl hrun
  | completes => exact absurd (complete_todo s _) hrun

theorem runEngine_sameResults (n : Nat) (hrun : (runEngine n s).todo ≠ []) : s.SameResults (runEngine n s) :=
  runEngine_preserves (P := fun t => t.todo ≠ [] → s.SameResults t)
    (fun u hu hrun' => by
      have hbefore : u.todo ≠ [] := fun hidle => hrun' (by rw [engineStep_idle hidle, hidle])
      exact (hu hbefore).trans (engineStep_sameResults hrun'))
    n (fun _ => ⟨rfl, rfl, rfl, rfl, rfl, rfl⟩) hrun

/-- A host access moves data or writes `CMD`: it writes no completion register and appends no event. -/
theorem hostAccess_results {a : HostAct} (h : hostAccess a s = .next t) :
    t.err = s.err ∧ t.result = s.result ∧ t.xcount = s.xcount ∧ t.errPos = s.errPos ∧
      t.completions = s.completions := by
  obtain ⟨v, -, -, rfl⟩ | ⟨-, rfl⟩ | ⟨hdata, -⟩ := hostAccess_inv h
  · exact ⟨rfl, rfl, rfl, rfl, rfl⟩
  · exact ⟨rfl, rfl, rfl, rfl, rfl⟩
  · rw [hdata]
    exact ⟨rfl, rfl, rfl, rfl, rfl⟩

/-! ### The memories (R29, R78) -/

/-- The end of a command writes to `DST` what was received, if anything. -/
theorem raise_memInv (e : ErrCode) (pos : Nat) (h : s.memInv) : (raise e pos s).memInv := by
  obtain ⟨hsrc, hsrcw, hdst, -⟩ := h
  obtain ⟨-, hraise⟩ | ⟨-, hraise⟩ := raise_cases s e pos <;> rw [hraise]
  · exact ⟨hsrc, hsrcw, commit_wf s.dstIn hdst, nil_wf⟩
  · exact ⟨hsrc, hsrcw, hdst, nil_wf⟩

theorem complete_memInv (w : Written) (h : s.memInv) : (complete w s).memInv := by
  obtain ⟨hsrc, hsrcw, hdst, -⟩ := h
  cases w with
  | received => exact ⟨hsrc, hsrcw, commit_wf s.dstIn hdst, nil_wf⟩
  | nothing | readValue | modified _ | count => exact ⟨hsrc, hsrcw, hdst, nil_wf⟩

theorem State.Emits.memInv {es : List BusEvent} (h : s.Emits es t) (hs : s.memInv) : t.memInv := by
  obtain ⟨hsrc, hsrcw, hdst, hin⟩ := hs
  exact ⟨h.sameForEngine.src ▸ hsrc, h.sameForEngine.srcw ▸ hsrcw, h.sameResults.dst ▸ hdst, h.dstIn hin⟩

theorem engineStep_memInv (h : s.memInv) : (engineStep s).memInv := by
  refine engineStep_keeps h fun m r _ t hmove => ?_
  cases hmove with
  | goesOn _ emits _ _ => exact emits.memInv h
  | fails _ emits e pos => exact raise_memInv e pos (emits.memInv h)
  | completes _ => exact complete_memInv _ h

theorem hostAccess_memInv {a : HostAct} (hs : s.memInv) (h : hostAccess a s = .next t) : t.memInv := by
  obtain ⟨v, -, -, rfl⟩ | ⟨-, rfl⟩ | ⟨-, hmem⟩ := hostAccess_inv h
  · exact hs
  · exact hs
  · exact hmem hs

/-- The running command is no STREAM_READ, no completion of one is to be run, and `DST` holds `d`. -/
structure State.NotReceiving (d : List Host.Cell) (s : State) : Prop where
  command : decodeCommand s.lCmd ≠ .streamRead
  todo : .complete .received ∉ s.todo
  dst : s.dst = d

theorem complete_dst {w : Written} (hw : w ≠ .received) (s : State) : (complete w s).dst = s.dst := by
  cases w with
  | received => exact absurd rfl hw
  | nothing | readValue | modified _ | count => rfl

/-- Error entry writes `DST` for STREAM_READ alone (R275). -/
theorem raise_dst (e : ErrCode) (pos : Nat) (h : decodeCommand s.lCmd ≠ .streamRead) : (raise e pos s).dst = s.dst := by
  obtain ⟨hcmd, -⟩ | ⟨-, hraise⟩ := raise_cases s e pos
  · exact absurd (by rw [hcmd]; rfl) h
  · rw [hraise]
    rfl

/-- Where no STREAM_READ runs, an engine step leaves `DST`. -/
theorem engineStep_notReceiving {d : List Host.Cell} (h : s.NotReceiving d) : (engineStep s).NotReceiving d := by
  refine engineStep_keeps h fun m r htodo t hmove => ?_
  cases hmove with
  | goesOn _ emits todo received =>
    refine ⟨emits.sameForEngine.lCmd ▸ h.command, fun hmem => ?_, emits.sameResults.dst.trans h.dst⟩
    rw [todo, List.mem_append] at hmem
    obtain hnew | hold := hmem
    · exact h.command (received hnew)
    · exact h.todo (List.mem_of_mem_tail hold)
  | @fails u _ emits e pos =>
    have hcmd : decodeCommand u.lCmd ≠ .streamRead := emits.sameForEngine.lCmd ▸ h.command
    exact ⟨hcmd, by simp, (raise_dst e pos hcmd).trans (emits.sameResults.dst.trans h.dst)⟩
  | @completes w hm =>
    have hw : w ≠ .received := by
      rintro rfl
      exact h.todo (by simp [htodo, hm])
    exact ⟨(complete_sameForEngine s w).lCmd ▸ h.command, by simp, (complete_dst hw s).trans h.dst⟩

theorem runEngine_notReceiving {d : List Host.Cell} (n : Nat) (h : s.NotReceiving d) :
    (runEngine n s).NotReceiving d :=
  runEngine_preserves (P := State.NotReceiving d) (fun _ => engineStep_notReceiving) n h

end Sys2Proof.Machine
end

section
/-! SUPPORT. The grant (notes/assumptions/2.md): no engine step reads it, so a turn is its engine steps one at a
time. -/

namespace Sys2Proof.Machine

/-- The state under another grant. -/
def State.withGrant (s : State) (g : Nat) : State := { s with grant := g }

variable {s : State} {g : Nat}

/-- A test that does not read the grant. -/
theorem withGrant_ite {c : Prop} [Decidable c] {a a' b b' : State} (ha : a' = a.withGrant g) (hb : b' = b.withGrant g) :
    (if c then a' else b') = (if c then a else b).withGrant g := by
  split
  · exact ha
  · exact hb

theorem srcByte_withGrant (i : Nat) : srcByte i (s.withGrant g) = ((srcByte i s).1, (srcByte i s).2.withGrant g) := by
  cases h : oldValues s.srcOld i <;> simp [srcByte, State.withGrant, h, State.srcAt]

theorem srcWord_withGrant (i : Nat) : srcWord i (s.withGrant g) = ((srcWord i s).1, (srcWord i s).2.withGrant g) := by
  cases h : oldValues s.srcwOld i <;> simp [srcWord, State.withGrant, h, State.srcwAt]

theorem keepByte_withGrant (d : Dest) (r : Byte) : keepByte d r (s.withGrant g) = (keepByte d r s).withGrant g := by
  cases d <;> rfl

theorem driveSelect_withGrant (l : Line) (high : Bool) :
    driveSelect l high (s.withGrant g) = (driveSelect l high s).withGrant g := by
  cases l <;> rfl

theorem complete_withGrant (w : Written) : complete w (s.withGrant g) = (complete w s).withGrant g := by
  cases w <;> rfl

theorem pollStep_withGrant : pollStep (s.withGrant g) = (pollStep s).withGrant g := by
  cases h : s.params.readyTimeout with
  | none => simp [pollStep, State.withGrant, State.pop, h]
  | some n =>
    simp only [pollStep, State.withGrant, State.pop, h]
    exact withGrant_ite rfl rfl

theorem startOf_withGrant (i : Instr) : startOf i (s.withGrant g) = (startOf i s).withGrant g := by
  cases i with
  | waitReady | ctrlWrite | ctrlRead | ramWrite | ramRead | regSetBits | regClearBits | hardReset =>
    exact withGrant_ite rfl rfl
  | streamWrite | streamRead | loadPlugin => exact withGrant_ite (withGrant_ite rfl rfl) rfl
  | loadApp => exact withGrant_ite (withGrant_ite rfl (withGrant_ite rfl rfl)) rfl
  | pluginLit _ _ | pluginRle _ _ _ | appDataT0 _ _ | appDataT1 _ _ | appDataT2 _ _ | appExec _ _
  | appTypeIllegal04 _ | appTypeIllegal08 _ | appTypeIllegal10 _ | appTypeIllegal20 _ | appTypeIllegal40 _
  | appTypeIllegal80 _ => exact withGrant_ite rfl rfl
  | _ => rfl

theorem microStep_withGrant (m : Micro) : microStep m (s.withGrant g) = (microStep m s).withGrant g := by
  cases m with
  | gate => exact withGrant_ite rfl rfl
  | polled => exact pollStep_withGrant
  | sel l high => exact driveSelect_withGrant (s := s.pop) l high
  | xfer b d => exact keepByte_withGrant (s := (transfer b s.pop).2) d _
  | stream d => exact withGrant_ite (withGrant_ite rfl rfl) rfl
  | fetchByte => simp only [microStep, fetchStep, srcByte_withGrant]; rfl
  | magicBytes got => simp only [microStep, magicStep, srcByte_withGrant]; rfl
  | appBytes got => simp only [microStep, appByteStep, srcByte_withGrant]; rfl
  | pluginWords got => simp only [microStep, pluginWordStep, srcWord_withGrant]; rfl
  | pluginRecord => exact withGrant_ite rfl (withGrant_ite rfl rfl)
  | appRecord | rleData _ => exact withGrant_ite rfl rfl
  | litData j =>
    refine withGrant_ite ?_ rfl
    simp only [srcWord_withGrant]
    rfl
  | appData j =>
    refine withGrant_ite ?_ rfl
    simp only [srcByte_withGrant]
    rfl
  | appLow j h => simp only [microStep, appLowStep, srcByte_withGrant]; rfl
  | complete w => exact complete_withGrant w
  | _ => rfl

theorem engineStep_withGrant : engineStep (s.withGrant g) = (engineStep s).withGrant g := by
  cases htodo : s.todo with
  | nil => rw [engineStep_idle htodo, engineStep_idle (s := s.withGrant g) htodo]
  | cons m r =>
    cases hmeet : meet s with
    | instr i =>
      rw [engineStep_of_meet_instr hmeet, engineStep_of_meet_instr (s := s.withGrant g) hmeet]
      exact startOf_withGrant (s := s.pop) i
    | bad e pos =>
      rw [engineStep_of_meet_bad hmeet, engineStep_of_meet_bad (s := s.withGrant g) hmeet]
      rfl
    | micro =>
      rw [engineStep_of_meet_micro htodo hmeet, engineStep_of_meet_micro (s := s.withGrant g) htodo hmeet]
      exact microStep_withGrant m

/-- A turn of `n` engine steps is the same under every grant. -/
theorem runEngine_withGrant (n : Nat) : runEngine n (s.withGrant g) = (runEngine n s).withGrant g := by
  induction n generalizing s with
  | zero => rfl
  | succ n ih => rw [← runEngine_engineStep, ← runEngine_engineStep, engineStep_withGrant, ih]

/-- A turn is one engine step and as many more as the grant says. -/
theorem engineTurn_eq_runEngine (s : State) : engineTurn s = .next (runEngine (s.grant + 1) s) := by
  rw [engineTurn_eq, (engineStep_sameForEngine s).grant, runEngine_engineStep]

/-- With nothing on the agenda a step is the engine's turn. -/
theorem step_of_agenda_nil (h : s.agenda = []) : step s = .next (runEngine (s.grant + 1) s) := by
  rw [← engineTurn_eq_runEngine]
  simp [step, h]

/-- A run goes on from the state a step leads to. -/
theorem core_run_succ {M : Host.Core} {u v : M.State} (k : Nat) (h : M.step u = .next v) :
    M.run (k + 1) u = M.run k v := by
  simp only [Host.Core.run, h]

/-- Under a grant of 0, steps of the machine are engine steps. -/
theorem run_of_grant_zero (k : Nat) (hagenda : s.agenda = []) (hgrant : s.grant = 0) :
    Host.Core.run Sys2Proof.core k s = .next (runEngine k s) := by
  induction k generalizing s with
  | zero => rfl
  | succ k ih =>
    have hstep : step s = .next (engineStep s) := by
      rw [step_of_agenda_nil hagenda, hgrant, ← runEngine_engineStep, runEngine_zero]
    have hsame := engineStep_sameForEngine s
    rw [core_run_succ (M := Sys2Proof.core) k hstep, ih (hsame.agenda.trans hagenda) (hsame.grant.trans hgrant),
      runEngine_engineStep]

end Sys2Proof.Machine
end

section
/-! SUPPORT. The step where the sequencer meets an object, and the heads of the loaders' loops, which read a record as
far as the decoder needs it (R31, R90, R106). -/

namespace Sys2Proof.Machine

variable {s : State} {r : List Micro} {i : Instr}

/-- Where the sequencer meets an object that decodes, the step runs the object's instruction. -/
theorem step_of_meet (hagenda : s.agenda = []) (h : meet s = .instr i) : step s = exec i s.pop := by
  simp [step, hagenda, engineTurn, h]

/-- The same in a turn that the agenda grants. -/
theorem step_of_meet_granted {g : Nat} {rest : List Turn} (hagenda : s.agenda = .engine g :: rest)
    (h : meet { s with agenda := rest, grant := g } = .instr i) :
    step s = exec i { s with agenda := rest, grant := g }.pop := by
  simp [step, hagenda, engineTurn, h]

theorem meet_command (htodo : s.todo = .command :: r) (h : decode (.command s.lCmd) = .ok i) : meet s = .instr i := by
  simp [meet, htodo, metOf, h]

theorem meet_pluginWords {ws : List Half} (htodo : s.todo = .pluginWords ws :: r) (hwhole : s.pluginWhole ws = true)
    (h : decode (.plugin ws) = .ok i) : meet s = .instr i := by
  simp [meet, htodo, hwhole, metOf, h]

theorem meet_appBytes {bs : List Byte} (htodo : s.todo = .appBytes bs :: r) (hwhole : s.appWhole bs = true)
    (h : decode (.app bs) = .ok i) : meet s = .instr i := by
  simp [meet, htodo, hwhole, metOf, h]

/-! ### Reading a record element by element -/

/-- The state with its pseudocode replaced. -/
def State.withTodo (s : State) (ms : List Micro) : State := { s with todo := ms }

/-- Another item at the head, left behind, leaves the same state. -/
theorem withTodo_pop {m m' : Micro} (h : s.todo = m :: r) : (s.withTodo (m' :: r)).pop = s.pop := by
  simp [State.withTodo, State.pop, h]

/-- The first `n` elements. -/
def firstOf {α : Type} (f : Nat → α) (n : Nat) : List α := (List.range n).map f

section
variable {α : Type} (f : Nat → α)

theorem firstOf_succ (n : Nat) : firstOf f (n + 1) = firstOf f n ++ [f n] := by simp [firstOf, List.range_succ]

@[simp] theorem length_firstOf (n : Nat) : (firstOf f n).length = n := by simp [firstOf]

theorem getElem?_firstOf {n k : Nat} (h : k < n) : (firstOf f n)[k]? = some (f k) := by simp [firstOf, h]

/-- A loop that reads one element in each engine step. -/
theorem runEngine_reads (item : List α → Micro) (n : Nat)
    (hstep : ∀ k, k < n →
      engineStep (s.withTodo (item (firstOf f k) :: r)) = s.withTodo (item (firstOf f k ++ [f k]) :: r)) :
    runEngine n (s.withTodo (item [] :: r)) = s.withTodo (item (firstOf f n) :: r) := by
  induction n with
  | zero => rfl
  | succ n ih =>
    rw [runEngine_add, ih fun k hk => hstep k (by omega), ← runEngine_engineStep, runEngine_zero, hstep n (by omega),
      firstOf_succ]

end

/-- The words of `SRCW` from the cursor on. -/
def State.wordFrom (s : State) (k : Nat) : Half := s.srcwAt (s.cur + k)

/-- The bytes of `SRC` from the cursor on. -/
def State.byteFrom (s : State) (k : Nat) : Byte := s.srcAt (s.cur + k)

/-- One word of a plugin record is read where the record is not whole and no write raced. -/
theorem engineStep_reads_word {ws : List Half} (hwhole : s.pluginWhole ws = false) (hstable : s.sourcesStable) :
    engineStep (s.withTodo (.pluginWords ws :: r)) = s.withTodo (.pluginWords (ws ++ [s.wordFrom ws.length]) :: r) := by
  obtain ⟨-, hstep⟩ | ⟨htrue, -⟩ := engineStep_pluginWords (s := s.withTodo (.pluginWords ws :: r)) rfl
  · have hold : (s.withTodo (.pluginWords ws :: r)).srcwOld = [] := hstable.2
    rw [hstep, pluginWordStep, srcWord_stable _ _ hold]
    rfl
  · exact absurd (hwhole.symm.trans htrue) (by simp)

/-- One byte of an application record's header is read where the header is not whole and no write raced. -/
theorem engineStep_reads_byte {bs : List Byte} (hwhole : s.appWhole bs = false) (hstable : s.sourcesStable) :
    engineStep (s.withTodo (.appBytes bs :: r)) = s.withTodo (.appBytes (bs ++ [s.byteFrom bs.length]) :: r) := by
  obtain ⟨-, hstep⟩ | ⟨htrue, -⟩ := engineStep_appBytes (s := s.withTodo (.appBytes bs :: r)) rfl
  · have hold : (s.withTodo (.appBytes bs :: r)).srcOld = [] := hstable.1
    rw [hstep, appByteStep, srcByte_stable _ _ hold]
    rfl
  · exact absurd (hwhole.symm.trans htrue) (by simp)

/-- The head of LOAD_PLUGIN's loop goes on to the record where its first two words lie inside the image. -/
theorem engineStep_enters_plugin (htodo : s.todo = .pluginRecord :: r) (hlen : s.cur + 2 ≤ s.len) :
    engineStep s = s.withTodo (.pluginWords [] :: r) := by
  have hmore : ¬ s.len ≤ s.cur := by omega
  have hfits : ¬ s.len < s.cur + 2 := by omega
  simp [engineStep_pluginRecord htodo, pluginStep, hmore, hfits, State.pop, State.push, State.withTodo, htodo]

/-- The head of LOAD_APP's loop goes on to the record while the image has bytes. -/
theorem engineStep_enters_app (htodo : s.todo = .appRecord :: r) (hlen : s.cur < s.len) :
    engineStep s = s.withTodo (.appBytes [] :: r) := by
  simp [engineStep_appRecord htodo, appRecordStep, hlen, State.pop, State.push, State.withTodo, htodo]

/-- A literal record is told by its first two words (R99). -/
theorem decodePlugin_lit {a h : Half} (hlit : h.getLsbD 15 = false) (rest : List Half) :
    decodePlugin (a :: h :: rest) = .ok (.pluginLit a (h.extractLsb' 0 15)) := by
  simp only [decodePlugin, hlit, Bool.false_eq_true, if_false]

/-- Two words of an RLE record are no record (R106). -/
theorem decodePlugin_rle_short {a h : Half} (hrle : h.getLsbD 15 = true) :
    decodePlugin [a, h] = .error .truncatedRecord := by
  simp only [decodePlugin, hrle, if_true]

/-- Two words are the whole fixed part of a literal record, and of an RLE record cut short by the image. -/
theorem pluginWhole_two (a h : Half) : s.pluginWhole [a, h] = (!h.getLsbD 15 || decide (s.len < s.cur + 3)) := by
  simp only [State.pluginWhole, List.isEmpty_nil, Bool.not_true, Bool.or_false]

/-- The fixed words of a plugin record that decodes are two or three; with fewer the record is not whole. -/
theorem plugin_fixed_words (h : decodePlugin (firstOf s.wordFrom (min 3 (s.len - s.cur))) = .ok i) :
    s.cur + 2 ≤ s.len ∧ ∃ n, decodePlugin (firstOf s.wordFrom n) = .ok i ∧
      s.pluginWhole (firstOf s.wordFrom n) = true ∧ ∀ k, k < n → s.pluginWhole (firstOf s.wordFrom k) = false := by
  have two : firstOf s.wordFrom 2 = [s.wordFrom 0, s.wordFrom 1] := rfl
  have three : firstOf s.wordFrom 3 = [s.wordFrom 0, s.wordFrom 1, s.wordFrom 2] := rfl
  have short (k : Nat) (hk : k < 2) : s.pluginWhole (firstOf s.wordFrom k) = false := by
    match k, hk with
    | 0, _ | 1, _ => rfl
  obtain hm | hm | hm | hm : min 3 (s.len - s.cur) = 0 ∨ min 3 (s.len - s.cur) = 1 ∨ min 3 (s.len - s.cur) = 2 ∨
      min 3 (s.len - s.cur) = 3 := by omega
  all_goals rw [hm] at h
  · cases h
  · cases h
  all_goals
    refine ⟨by omega, ?_⟩
    cases hrle : (s.wordFrom 1).getLsbD 15
  · exact ⟨2, h, by rw [two, pluginWhole_two, hrle]; rfl, short⟩
  · rw [two, decodePlugin_rle_short hrle] at h
    cases h
  · refine ⟨2, ?_, by rw [two, pluginWhole_two, hrle]; rfl, short⟩
    rw [three, decodePlugin_lit hrle] at h
    rw [two, decodePlugin_lit hrle, h]
  · refine ⟨3, h, by simp [three, State.pluginWhole], fun k hk => ?_⟩
    obtain hk | rfl : k < 2 ∨ k = 2 := by omega
    · exact short k hk
    · have hlong : ¬ s.len < s.cur + 3 := by omega
      rw [two, pluginWhole_two, hrle, decide_eq_false hlong]
      rfl

/-- The header bytes of an application record that decodes are one or five; with fewer the header is not whole. -/
theorem app_header_bytes (hlen : s.cur < s.len) (h : decodeApp (firstOf s.byteFrom (min 5 (s.len - s.cur))) = .ok i) :
    ∃ n, decodeApp (firstOf s.byteFrom n) = .ok i ∧ s.appWhole (firstOf s.byteFrom n) = true ∧
      ∀ k, k < n → s.appWhole (firstOf s.byteFrom k) = false := by
  obtain ⟨m, hm⟩ : ∃ m, min 5 (s.len - s.cur) = m + 1 := ⟨min 5 (s.len - s.cur) - 1, by omega⟩
  have hcons (n : Nat) : firstOf s.byteFrom (n + 1) = s.byteFrom 0 :: firstOf (fun k => s.byteFrom (k + 1)) n := by
    simp [firstOf, List.range_succ_eq_map, Function.comp_def]
  by_cases htype : 3 < (s.byteFrom 0).toNat
  · refine ⟨1, ?_, by simp [hcons, State.appWhole, htype], fun k hk => ?_⟩
    · rw [hm, hcons] at h
      simpa [hcons, decodeApp, htype] using h
    · obtain rfl : k = 0 := by omega
      rfl
  · have hfive : s.cur + 5 ≤ s.len := by
      by_contra hshort
      have hm4 : m < 4 := by omega
      rw [hm, hcons] at h
      match m, hm4 with
      | 0, _ | 1, _ | 2, _ | 3, _ => simp [firstOf, List.range_succ, decodeApp, htype] at h
    have hm5 : min 5 (s.len - s.cur) = 5 := by omega
    refine ⟨5, hm5 ▸ h, by simp [hcons, State.appWhole], fun k hk => ?_⟩
    cases k with
    | zero => rfl
    | succ k =>
      have hk4 : ¬ 4 ≤ k := by omega
      have hlong : ¬ s.len < s.cur + 5 := by omega
      simp [hcons, State.appWhole, htype, hlong, hk4]

/-- At the head of LOAD_PLUGIN's loop, the engine reads the fixed words of the record and no more. -/
theorem runEngine_to_plugin (htodo : s.todo = .pluginRecord :: r) (hstable : s.sourcesStable) (hlen : s.cur + 2 ≤ s.len)
    {n : Nat} (hpart : ∀ k, k < n → s.pluginWhole (firstOf s.wordFrom k) = false) :
    runEngine (n + 1) s = s.withTodo (.pluginWords (firstOf s.wordFrom n) :: r) := by
  rw [← runEngine_engineStep, engineStep_enters_plugin htodo hlen]
  refine runEngine_reads s.wordFrom .pluginWords n fun k hk => ?_
  rw [engineStep_reads_word (hpart k hk) hstable, length_firstOf]

/-- At the head of LOAD_APP's loop, the engine reads the header of the record as far as it is needed. -/
theorem runEngine_to_app (htodo : s.todo = .appRecord :: r) (hstable : s.sourcesStable) (hlen : s.cur < s.len)
    {n : Nat} (hpart : ∀ k, k < n → s.appWhole (firstOf s.byteFrom k) = false) :
    runEngine (n + 1) s = s.withTodo (.appBytes (firstOf s.byteFrom n) :: r) := by
  rw [← runEngine_engineStep, engineStep_enters_app htodo hlen]
  refine runEngine_reads s.byteFrom .appBytes n fun k hk => ?_
  rw [engineStep_reads_byte (hpart k hk) hstable, length_firstOf]

end Sys2Proof.Machine
end

section
/-! SUPPORT. The host's registers and buffers (R23-R29), and the completion entry (R42). -/

namespace Sys2Proof.Machine

variable {s t : State} {rest : List Turn}

/-! ### The host's registers (R24) -/

/-- A write of a register that keeps nothing changes nothing. -/
theorem hostWrite_ignored {n : Nat} (hn : n = 1 ∨ 6 ≤ n) (v : Long) (s : State) : hostWrite n v s = s := by
  unfold hostWrite
  split
  case h_6 => rfl
  all_goals omega

/-- A write of an operand register stores the register's width of bits. -/
theorem hostWrite_operand {n : Nat} (hlow : 2 ≤ n) (hhigh : n ≤ 5) (v : Long) (s : State) :
    hostWrite n v s =
      { s with
        argReg := if n = 2 then v.truncate 8 else s.argReg
        argA := if n = 3 then v.truncate 16 else s.argA
        argB := if n = 4 then v.truncate 16 else s.argB
        bufLen := if n = 5 then v else s.bufLen } := by
  obtain rfl | rfl | rfl | rfl : n = 2 ∨ n = 3 ∨ n = 4 ∨ n = 5 := by omega
  all_goals simp only [hostWrite, extractLsb'_zero_eq_truncate]; rfl

theorem hostRegister_above {n : Nat} (hn : 9 < n) (s : State) : s.hostRegister n = 0 := by
  unfold State.hostRegister
  split
  case h_10 => rfl
  all_goals omega

/-! ### The host's buffers (R29) -/

theorem srcAt_write_same (s : State) (i : Nat) (b : Byte) : (hostWriteSrc i b s).srcAt i = b := by
  simp [hostWriteSrc, State.srcAt, readBuffer_write_same]

theorem srcAt_write_other (s : State) {i j : Nat} (b : Byte) (h : j ≠ i) :
    (hostWriteSrc i b s).srcAt j = s.srcAt j := by
  simp [hostWriteSrc, State.srcAt, readBuffer_write_other _ _ h]

theorem srcwAt_write_same (s : State) (i : Nat) (w : Half) : (hostWriteSrcw i w s).srcwAt i = w := by
  simp [hostWriteSrcw, State.srcwAt, readBuffer_write_same]

theorem srcwAt_write_other (s : State) {i j : Nat} (w : Half) (h : j ≠ i) :
    (hostWriteSrcw i w s).srcwAt j = s.srcwAt j := by
  simp [hostWriteSrcw, State.srcwAt, readBuffer_write_other _ _ h]

/-- While idle a host write of `DST` is that write and nothing else. -/
theorem hostWriteDst_idle (h : s.busy = false) (i : Nat) (b : Byte) :
    hostWriteDst i b s = { s with dst := writeBuffer s.dst i b } := by
  simp [hostWriteDst, h]

theorem dstAt_write_same (h : s.busy = false) (i : Nat) (b : Byte) : (hostWriteDst i b s).dstAt i = b := by
  simp [hostWriteDst_idle h, State.dstAt, readBuffer_write_same]

theorem dstAt_write_other (h : s.busy = false) {i j : Nat} (b : Byte) (hj : j ≠ i) :
    (hostWriteDst i b s).dstAt j = s.dstAt j := by
  simp [hostWriteDst_idle h, State.dstAt, readBuffer_write_other _ _ hj]

/-- While idle a host read of `DST` is recorded. -/
theorem hostReadDst_idle (h : s.busy = false) (i : Nat) :
    hostReadDst i s = s.logRead ((s.dstAt i).zeroExtend 32) := by
  simp [hostReadDst, h]

/-! ### The bits of STATUS and LINES (R25, R28) -/

theorem statusWord_err (s : State) : s.statusWord.extractLsb' 4 4 = s.err.code := by
  unfold State.statusWord
  exact BitVec.extractLsb'_append_eq_left

theorem linesWord_high (s : State) : s.linesWord.extractLsb' 5 3 = 0 := by
  unfold State.linesWord
  exact BitVec.extractLsb'_append_eq_left

/-! ### WAITDONE (R109) -/

/-- While a command runs, WAITDONE reads STATUS and the engine has its turn. -/
theorem step_of_waitDone_busy (hagenda : s.agenda = .waitDone :: rest) (h : s.busy = true) :
    step s = engineTurn (s.logRead (s.hostRegister 1)) := by
  simp [step, hagenda, h]

theorem step_of_engine {g : Nat} (hagenda : s.agenda = .engine g :: rest) :
    step s = engineTurn { s with agenda := rest, grant := g } := by
  simp [step, hagenda]

/-- While no command runs, WAITDONE reads STATUS and leaves the agenda. -/
theorem step_of_waitDone_idle (hagenda : s.agenda = .waitDone :: rest) (h : s.busy = false) :
    step s = .next { s.logRead (s.hostRegister 1) with agenda := rest } := by
  simp [step, hagenda, h]

/-! ### The end of a command (R26, R42) -/

/-- The bytes a completion entry lists: for STREAM_READ the first bytes of `DST`. -/
theorem listed_bytes (s : State) (n : Nat) :
    ((List.range n).map s.dstAt).length = n ∧ ∀ j, j < n → ((List.range n).map s.dstAt)[j]? = some (s.dstAt j) :=
  ⟨length_firstOf s.dstAt n, fun _ => getElem?_firstOf s.dstAt⟩

/-- The entry of a completion (R42): for STREAM_READ it lists as many bytes of `DST` as the count, else none. -/
theorem finish_entry (s : State) (e : ErrCode) (pos : Nat) (r : Option Half) (c : Option Nat) :
    ∃ d, (finish e pos r c s).completions = s.completions ++
        [{ cmd := s.lCmd, err := e, result := r.getD s.result, xcount := (finish e pos r c s).xcount,
           errPos := BitVec.ofNat 32 pos, dst := d }] ∧
      (s.lCmd = 0x05 → d = (List.range (c.getD 0)).map s.dstAt) ∧ (s.lCmd ≠ 0x05 → d = []) := by
  refine ⟨_, rfl, fun h => if_pos ?_, fun h => if_neg ?_⟩ <;> simpa using h

end Sys2Proof.Machine
end

section
/-! The statements of spec/10_state.md. -/

namespace Sys2Proof.Machine

/-- Settles O22: the events of an engine step are moves of the protocol's automaton, and a host access makes none. -/
theorem stepKeepsBusProtocol : Obligations.StepKeepsBusProtocol := fun _ _ hs h =>
  step_preserves (fun _ _ _ _ hu => busInv_of_same hu rfl (fun l => by cases l <;> rfl) (fun _ => id))
    (fun _ _ _ => hostAccess_busInv) (fun _ => engineStep_busInv) hs h

/-- Settles O23: what a run of the automaton must hold between two edges. -/
theorem protocolMeansSelectRules : Obligations.ProtocolMeansSelectRules := by
  refine ⟨?_, ?_, ?_, ?_, fun s => select_not_both, fun s hs hidle => ?_⟩
  · rintro t a b l p ht rfl
    exact run_ends_with (fun _ _ => move_to_ready) (by simp) (run_around_fall ht).1
  · rintro t a m b p ht rfl hm
    exact frame_of_run (run_around_fall ht).2 hm
  · rintro t a m b l l' p ht rfl
    obtain ⟨c, hrun, hrest⟩ := run_append.1 (run_around_fall ht).2
    obtain ⟨_, hfall, -⟩ := run_cons.1 hrest
    obtain ⟨rfl, -⟩ := move_of_fall hfall
    by_contra hm
    cases run_stays_inside hrun (opened_inside l) hm
  · rintro t a m b p ht rfl hm
    obtain ⟨c, hrun, -⟩ := run_append.1 (run_around_fall ht).2
    refine ⟨run_inside_data hrun rfl hm, ?_⟩
    rintro m1 m2 o i rfl
    exact ready_before_data_byte hrun fun hx => hm (List.mem_append_left _ hx)
  · have hnil : s.todo = [] := by simpa [State.busy] using hidle
    exact ⟨idle_of_busInv hs hnil .cmd, idle_of_busInv hs hnil .data⟩

/-- Settles O11: an engine step writes no latched operand, and of the host's accesses an accept alone does. -/
theorem onlyAcceptLatches : Obligations.OnlyAcceptLatches := by
  intro s t h
  obtain ⟨a, rest, hagenda, ha⟩ | ⟨ag, g, rs, k, rfl⟩ := step_cases_runEngine h
  · obtain ⟨v, rfl, hidle, rfl⟩ | ⟨-, rfl⟩ | ⟨hdata, -⟩ := hostAccess_inv ha
    · exact .inr ⟨v, rest, hagenda, by simpa [State.busy] using hidle, extractLsb'_zero_eq_truncate v 8, rfl, rfl, rfl,
        rfl⟩
    · exact .inl ⟨rfl, rfl, rfl, rfl, rfl⟩
    · rw [hdata]
      exact .inl ⟨rfl, rfl, rfl, rfl, rfl⟩
  · obtain ⟨hCmd, hReg, hA, hB, hLen, -⟩ := runEngine_sameForEngine k { s with agenda := ag, grant := g, reads := rs }
    exact .inl ⟨hCmd, hReg, hA, hB, hLen⟩

/-- Settles O12, its second clause by running INIT's first engine steps. -/
theorem initDoneRule : Obligations.InitDoneRule := by
  refine ⟨rfl, fun s hgrant => ⟨_, exec_eq .init s, ?_⟩, fun s t => step_initDone, fun s i hi hinit => ?_⟩
  · obtain ⟨n, hn⟩ := Nat.exists_eq_add_of_le hgrant
    change (runEngine s.grant (startInit s)).initDone = true
    rw [hn, runEngine_add]
    exact runEngine_initDone n (runEngine_startInit s)
  · obtain ⟨n, d, hstart⟩ := startOf_before_init hi hinit
    refine ⟨raise .notInitialized 0 { s with xc := n, dstIn := d }, ?_, rfl, rfl, rfl⟩
    rw [exec_eq, hstart, runEngine_idle _ (raise_todo _ _ _)]

/-- Settles O13: an engine step leaves OVR, and a host access sets it or leaves it. -/
theorem ovrIsSticky : Obligations.OvrIsSticky := by
  refine ⟨rfl, fun s v rest hagenda hbusy => ?_, fun s t h hs => ?_⟩
  · rw [step_of_host hagenda]
    obtain ⟨hidle, -⟩ | ⟨-, hwrite⟩ := writeCmd_cases (v.extractLsb' 0 8) { s with agenda := rest }
    · exact absurd hidle (busy_iff.1 hbusy)
    · exact ⟨_, congrArg Host.Outcome.next hwrite, rfl⟩
  · refine step_preserves (P := fun u => u.ovr = true) (fun _ _ _ _ => id) (fun a u v hu ha => ?_)
      (fun u hu => (engineStep_sameForEngine u).ovr.trans hu) hs h
    obtain ⟨_, -, -, rfl⟩ | ⟨-, rfl⟩ | ⟨hdata, -⟩ := hostAccess_inv ha
    · exact hu
    · rfl
    · rw [hdata]
      exact hu

/-- Settles O18: a step is a run of engine steps, and no engine step reads the grant. -/
theorem grantOnlyGroupsEngineSteps : Obligations.GrantOnlyGroupsEngineSteps := by
  intro s n hagenda
  refine ⟨_, step_of_agenda_nil (s := s.withGrant n) hagenda, ?_⟩
  have hzero : s.withGrant 0 = (s.withGrant n).withGrant 0 := rfl
  change Host.Core.run Sys2Proof.core (n + 1) (s.withGrant 0) = .next ((runEngine (n + 1) (s.withGrant n)).withGrant 0)
  rw [run_of_grant_zero (s := s.withGrant 0) (n + 1) hagenda rfl, hzero, runEngine_withGrant]

/-- Settles O19: with no command the engine does nothing, and a host access appends nothing. -/
theorem noEventOutsideCommands : Obligations.NoEventOutsideCommands := by
  intro s t h hcase
  obtain ⟨a, rest, -, ha⟩ | ⟨ag, g, rs, k, rfl⟩ := step_cases_runEngine h
  · exact (hostAccess_keeps_record ha).1
  · obtain hidle | ⟨a, rest, hagenda⟩ := hcase
    · rw [runEngine_idle (s := { s with agenda := ag, grant := g, reads := rs }) k hidle]
    · rw [step_of_host hagenda] at h
      exact (hostAccess_keeps_record h).1

/-- Settles O21: only the end of a command writes the completion registers, and after it no command runs. -/
theorem resultsStandWhileBusy : Obligations.ResultsStandWhileBusy := by
  intro s t h hbusy
  obtain ⟨a, rest, -, ha⟩ | ⟨ag, g, rs, k, rfl⟩ := step_cases_runEngine h
  · have hresults := hostAccess_results ha
    exact hresults
  · obtain ⟨herr, hresult, hxcount, herrPos, hcompletions, -⟩ := runEngine_sameResults k (busy_iff.1 hbusy)
    exact ⟨herr, hresult, hxcount, herrPos, hcompletions⟩

/-- Settles O24, by the shapes the pseudocode of a block not yet initialised can have. -/
theorem stepKeepsPreInit : Obligations.StepKeepsPreInit := fun _ _ hs h =>
  step_preserves (fun _ _ _ _ => id) (fun _ _ _ => hostAccess_preInitInv) (fun _ => engineStep_preInitInv) hs h

/-- Settles O25: every write to a memory keeps its form. -/
theorem stepKeepsMemoryForm : Obligations.StepKeepsMemoryForm := fun _ _ hs h =>
  step_preserves (fun _ _ _ _ => id) (fun _ _ _ => hostAccess_memInv) (fun _ => engineStep_memInv) hs h

/-- Settles O26: the engine writes no source memory, and `DST` only in the end of a STREAM_READ. -/
theorem engineLeavesSourcesAlone : Obligations.EngineLeavesSourcesAlone := by
  intro s t h hnohost
  obtain ⟨a, rest, hagenda, -⟩ | ⟨ag, g, rs, k, rfl⟩ := step_cases_runEngine h
  · exact absurd hagenda (hnohost a rest)
  · have hsame := runEngine_sameForEngine k { s with agenda := ag, grant := g, reads := rs }
    refine ⟨hsame.src, hsame.srcw, fun hbusy => (runEngine_sameResults k (busy_iff.1 hbusy)).dst, fun hcmd htodo => ?_⟩
    have hstart : State.NotReceiving s.dst { s with agenda := ag, grant := g, reads := rs } := ⟨hcmd, htodo, rfl⟩
    exact (runEngine_notReceiving k hstart).dst

/-- Settles O16: the objects by what the sequencer meets, the records by the elements the loops read before. -/
theorem stepRunsDecodedInstruction : Obligations.StepRunsDecodedInstruction := by
  intro s i r
  refine ⟨fun hagenda htodo hdecode => step_of_meet hagenda (meet_command htodo hdecode), ?_, ?_,
    fun hagenda hmeet => step_of_meet hagenda hmeet, fun g rest hagenda hmeet => step_of_meet_granted hagenda hmeet⟩
  · intro hagenda htodo hstable _ hdecode
    obtain ⟨hlen, n, hn, hwhole, hpart⟩ := plugin_fixed_words hdecode
    refine ⟨firstOf s.wordFrom n, hn, fun k hk => getElem?_firstOf _ (by simpa using hk), ?_, ?_⟩
    · rw [length_firstOf]
      exact runEngine_to_plugin htodo hstable hlen hpart
    · rw [← withTodo_pop htodo]
      exact step_of_meet (s := s.withTodo (.pluginWords _ :: r)) hagenda (meet_pluginWords rfl hwhole hn)
  · intro hagenda htodo hstable hlen hdecode
    obtain ⟨n, hn, hwhole, hpart⟩ := app_header_bytes hlen hdecode
    refine ⟨firstOf s.byteFrom n, hn, fun k hk => getElem?_firstOf _ (by simpa using hk), ?_, ?_⟩
    · rw [length_firstOf]
      exact runEngine_to_app htodo hstable hlen hpart
    · rw [← withTodo_pop htodo]
      exact step_of_meet (s := s.withTodo (.appBytes _ :: r)) hagenda (meet_appBytes rfl hwhole hn)

/-- Settles O14: in the host's turn the step is the access, which the buffers' laws describe. -/
theorem hostBufferAccess : Obligations.HostBufferAccess := by
  intro s rest i b w
  refine ⟨?_, ?_, ?_, ?_, ?_, ?_, ?_, ?_⟩
  · intro hagenda hi
    exact ⟨hostWriteSrc i b { s with agenda := rest }, (step_of_host hagenda).trans (if_pos hi), srcAt_write_same _ i b,
      fun _ hj => srcAt_write_other _ b hj, rfl⟩
  · intro hagenda hi
    exact ⟨hostWriteSrcw i w { s with agenda := rest }, (step_of_host hagenda).trans (if_pos hi),
      srcwAt_write_same _ i w, fun _ hj => srcwAt_write_other _ w hj, rfl⟩
  · intro hagenda hi hidle
    have hidle' : ({ s with agenda := rest } : State).busy = false := hidle
    refine ⟨hostWriteDst i b { s with agenda := rest }, (step_of_host hagenda).trans (if_pos hi),
      dstAt_write_same hidle' i b, fun _ hj => dstAt_write_other hidle' b hj, ?_⟩
    rw [hostWriteDst_idle hidle']
  · intro hagenda hi hidle
    refine (step_of_host hagenda).trans ((if_pos hi).trans ?_)
    rw [hostReadDst_idle (s := { s with agenda := rest }) hidle]
    rfl
  all_goals
    intro hagenda hi
    exact (step_of_host hagenda).trans (if_neg (Nat.not_lt.2 hi))

/-- Settles O6: at reset nothing has been written, driven, sent or begun. -/
theorem resetMeetsInvariants : Obligations.ResetMeetsInvariants :=
  ⟨⟨.closed, rfl, rfl, linesAgree_iff.2 fun l => by cases l <;> simp [State.select, State.reset, BusPhase.inside]⟩,
    ⟨nil_wf, nil_wf, nil_wf, nil_wf⟩, fun _ => .inl ⟨rfl, rfl, rfl, rfl, rfl, rfl, .inl rfl⟩⟩

/-- Settles O7, a write by what it does to the register. -/
theorem hostRegisterMap : Obligations.HostRegisterMap := by
  intro s rest n v
  have operand {k : Nat} (hlow : 2 ≤ k) (hhigh : k ≤ 5) (hagenda : s.agenda = .host (.write k v) :: rest) :=
    (step_of_host hagenda).trans (congrArg Host.Outcome.next (hostWrite_operand hlow hhigh v { s with agenda := rest }))
  refine ⟨⟨rfl, rfl, rfl, rfl, rfl, rfl, rfl, rfl, rfl, rfl, fun hn => hostRegister_above hn s⟩,
    step_of_host, operand (k := 2) (by decide) (by decide), operand (k := 3) (by decide) (by decide),
    operand (k := 4) (by decide) (by decide), operand (k := 5) (by decide) (by decide), fun hagenda hn => ?_⟩
  exact (step_of_host hagenda).trans (congrArg Host.Outcome.next (hostWrite_ignored hn v _))

/-- Settles O8, the four flags bit by bit and the error code as the high half of the word. -/
theorem statusFields : Obligations.StatusFields := by
  intro s
  have hflags : s.statusWord.getLsbD 0 = s.busy ∧ s.statusWord.getLsbD 1 = s.initDone ∧
      s.statusWord.getLsbD 2 = s.ovr ∧ s.statusWord.getLsbD 3 = false := by
    simp only [State.statusWord, BitVec.getLsbD_append, BitVec.getLsbD_ofBool]
    simp
  obtain ⟨hbusy, hinit, hovr, hthree⟩ := hflags
  refine ⟨hbusy, hinit, hovr, hthree, ?_⟩
  rw [statusWord_err]
  cases s.err <;> rfl

/-- Settles O9, bit by bit. -/
theorem linesFields : Obligations.LinesFields := by
  intro s
  have hbits : s.linesWord.getLsbD 0 = s.cfg ∧
      (s.linesWord.getLsbD 1 = true ↔ s.cfg = true ∧ s.csCmd = .high) ∧
      (s.linesWord.getLsbD 2 = true ↔ s.cfg = true ∧ s.csData = .high) ∧
      (s.linesWord.getLsbD 3 = true ↔ s.cfg = true ∧ s.resetLine = .driven .asserted) ∧
      s.linesWord.getLsbD 4 = s.lastRdy := by
    simp only [State.linesWord, BitVec.getLsbD_append, BitVec.getLsbD_ofBool, SelLevel.isHigh]
    simp
  obtain ⟨hcfg, hcmd, hdata, hreset, hready⟩ := hbits
  exact ⟨hcfg, hcmd, hdata, hreset, hready, linesWord_high s⟩

/-- Settles O10: a write of `CMD` by whether a command runs, an operand write by the register it names. -/
theorem commandAcceptAndOverrun : Obligations.CommandAcceptAndOverrun := by
  intro s rest v
  refine ⟨fun hagenda hidle => ?_, fun hagenda hbusy => ?_, fun n hlow hhigh hagenda _ => ?_⟩
  · have hwrite : writeCmd (v.extractLsb' 0 8) { s with agenda := rest } =
        accept (v.truncate 8) { s with agenda := rest } := by
      rw [extractLsb'_zero_eq_truncate]
      exact if_neg (by simpa [State.busy] using hidle)
    exact ⟨_, (step_of_host hagenda).trans (congrArg Host.Outcome.next hwrite), rfl, rfl⟩
  · exact (step_of_host hagenda).trans (congrArg Host.Outcome.next (if_pos hbusy))
  · have hwrite := hostWrite_operand hlow hhigh v { s with agenda := rest }
    exact ⟨_, (step_of_host hagenda).trans (congrArg Host.Outcome.next hwrite), rfl, rfl, rfl, rfl, rfl, rfl, rfl, rfl,
      rfl, rfl, rfl, rfl, rfl⟩

/-- Settles O17: what is recorded is STATUS, and the engine's turn keeps the agenda and the record. -/
theorem waitDoneTurn : Obligations.WaitDoneTurn := by
  intro s rest hagenda
  refine ⟨fun hbusy => ?_, fun hidle => step_of_waitDone_idle hagenda hidle⟩
  have hturn := step_of_waitDone_busy hagenda hbusy
  have hsame := runEngine_sameForEngine (s.grant + 1) (s.logRead (s.hostRegister 1))
  refine ⟨?_, _, hturn.trans (engineTurn_eq_runEngine _), hsame.agenda.trans hagenda, hsame.reads⟩
  rw [step_of_engine (s := { s with reads := _, agenda := _ }) rfl, hturn, ← hagenda]
  rfl

/-- Settles O28, a received count by what `DST` reads as once the bytes received are in it. -/
theorem completionEntry : Obligations.CompletionEntry := by
  refine ⟨fun s e pos r c => ⟨rfl, rfl, rfl, rfl, by cases c <;> rfl, ?_⟩,
    fun s => ⟨rfl, rfl, rfl, commitDst_dstAt s, ?_⟩⟩
  · obtain ⟨d, hentry, hread, hother⟩ := finish_entry s e pos r c
    refine ⟨d, hentry, ?_, hother⟩
    rintro hcmd n rfl
    rw [hread hcmd]
    exact listed_bytes s n
  · obtain ⟨d, hentry, hread, -⟩ := finish_entry s.commitDst .ok 0 none (some s.xc)
    refine ⟨_, hentry, fun hcmd => ?_⟩
    have hd : d = (List.range s.xc).map s.commitDst.dstAt := hread hcmd
    subst hd
    obtain ⟨hlen, hbytes⟩ := listed_bytes s.commitDst s.xc
    exact ⟨hlen, fun j hj => by rw [hbytes j hj, commitDst_dstAt]⟩

end Sys2Proof.Machine
end

section
/-! SUPPORT. The bit order of one transfer and what its clock edges sample (R67). -/

namespace Sys2Proof.Machine

/-! ### The bits of a byte -/

/-- One more bit received moves the bits before it up by one. -/
theorem misoByte_concat (bits : List Bool) (x : Bool) :
    misoByte (bits ++ [x]) = (misoByte bits <<< 1) ||| (if x then 1#8 else 0#8) := by
  simp [misoByte]

/-- Bit `i` of the byte received is the bit that came `i` before the last. -/
theorem misoByte_getLsbD (bits : List Bool) {i : Nat} (hi : i < 8) :
    (misoByte bits).getLsbD i = bits.reverse.getD i false := by
  induction bits using List.reverseRecOn generalizing i with
  | nil => simp [misoByte]
  | append_singleton bits x ih =>
    have hlast : (if x then 1#8 else 0#8).getLsbD i = (decide (i = 0) && x) := by cases x <;> simp
    rw [misoByte_concat, BitVec.getLsbD_or, BitVec.getLsbD_shiftLeft, hlast]
    cases i with
    | zero => simp
    | succ i => simp [hi, ih (i := i) (by omega)]

theorem mosiBits_getElem? (b : Byte) {k : Nat} (hk : k < 8) : (mosiBits b)[k]? = some (b.getLsbD (7 - k)) := by
  simp [mosiBits, hk]

@[simp] theorem mosiBits_length (b : Byte) : (mosiBits b).length = 8 := by simp [mosiBits]

/-- The bits of a byte in the order they are sent, put together in that order, are the byte. -/
@[simp] theorem misoByte_mosiBits (b : Byte) : misoByte (mosiBits b) = b := by
  refine BitVec.eq_of_getLsbD_eq fun i hi => ?_
  have hback : 7 - (8 - 1 - i) = i := by omega
  rw [misoByte_getLsbD _ hi, List.getD_eq_getElem?_getD, List.getElem?_reverse (by simpa using hi), mosiBits_length,
    mosiBits_getElem? b (by omega), hback, Option.getD_some]

/-! ### The clock periods -/

/-- A wire sequence of periods is two phases long for each. -/
theorem length_periods {α β : Type} (f g : α → β) (ks : List α) :
    (ks.flatMap fun k => [f k, g k]).length = 2 * ks.length := by
  induction ks with
  | nil => rfl
  | cons k ks ih => simp only [List.flatMap_cons, List.length_append, List.length_cons, List.length_nil, ih]; omega

/-- The two phases of period `n`. -/
theorem getElem?_periods {α β : Type} (f g : α → β) (ks : List α) (n : Nat) :
    (ks.flatMap fun k => [f k, g k])[2 * n]? = ks[n]?.map f ∧
      (ks.flatMap fun k => [f k, g k])[2 * n + 1]? = ks[n]?.map g := by
  induction ks generalizing n with
  | nil => simp
  | cons k ks ih =>
    cases n with
    | zero => simp
    | succ n => simpa [Nat.mul_succ] using ih n

/-- In periods of a low and then a high `SCK`, the rising edges are where the second phases begin, whatever the level
before. -/
theorem leadingEdges_periods (mosi first second : Nat → Bool) (ks : List Nat) (last : Bool) :
    leadingEdges last (ks.flatMap fun k => [⟨false, mosi k, first k⟩, ⟨true, mosi k, second k⟩]) =
      ks.map fun k => ⟨true, mosi k, second k⟩ := by
  induction ks generalizing last with
  | nil => rfl
  | cons k ks ih => simpa [leadingEdges] using ih true

/-- A transfer has a rising edge in each of its eight periods. -/
theorem leadingEdges_transferPhases (b : Byte) (first second : Nat → Bool) :
    leadingEdges false (transferPhases b first second) =
      (List.range 8).map fun k => ⟨true, b.getLsbD (7 - k), second k⟩ :=
  leadingEdges_periods _ _ _ _ _

theorem transferPhases_length (b : Byte) (first second : Nat → Bool) :
    (transferPhases b first second).length = 16 :=
  length_periods _ _ _

/-- `SCK` is low and then high in each period of a transfer. -/
theorem transferPhases_period (b : Byte) (first second : Nat → Bool) {k : Nat} (hk : k < 8) :
    (transferPhases b first second)[2 * k]? = some ⟨false, b.getLsbD (7 - k), first k⟩ ∧
      (transferPhases b first second)[2 * k + 1]? = some ⟨true, b.getLsbD (7 - k), second k⟩ := by
  obtain ⟨hlow, hhigh⟩ := getElem?_periods (fun k => (⟨false, b.getLsbD (7 - k), first k⟩ : PinPhase))
    (fun k => ⟨true, b.getLsbD (7 - k), second k⟩) (List.range 8) k
  rw [List.getElem?_range hk] at hlow hhigh
  exact ⟨hlow, hhigh⟩

theorem sampledMosi_transferPhases (b : Byte) (first second : Nat → Bool) :
    sampledMosi (transferPhases b first second) = mosiBits b := by
  rw [sampledMosi, leadingEdges_transferPhases, List.map_map]
  rfl

/-- What stands on `MISO` at the rising edges is received. -/
theorem sampledMiso_transferPhases (b r : Byte) {first second : Nat → Bool}
    (h : ∀ k, k < 8 → second k = r.getLsbD (7 - k)) : sampledMiso (transferPhases b first second) = r := by
  have hbits : (List.range 8).map second = mosiBits r :=
    List.map_congr_left fun k hk => h k (List.mem_range.1 hk)
  rw [sampledMiso, leadingEdges_transferPhases, List.map_map]
  exact (congrArg misoByte hbits).trans (misoByte_mosiBits r)

end Sys2Proof.Machine
end

section
/-! SUPPORT. Reads of source elements that the host races (R82), and error entry by the command word (R275). -/

namespace Sys2Proof.Machine

variable {s : State}

/-! ### Raced reads -/

/-- A raced read returns one of the values it may choose from. -/
theorem raced_mem {α : Type} (now : α) (old : List α) (choice : Nat) : raced now old choice ∈ now :: old := by
  have hchoice : choice % (old.length + 1) < (now :: old).length := Nat.mod_lt _ (Nat.succ_pos _)
  rw [raced, List.getD_eq_getElem _ _ hchoice]
  exact List.getElem_mem hchoice

/-- What a read of `SRC` can return. -/
theorem srcByte_mem (i : Nat) (s : State) : (srcByte i s).1 ∈ s.srcAt i :: oldValues s.srcOld i := by
  unfold srcByte
  split
  · exact List.mem_cons_self
  · exact raced_mem _ _ _

/-- What a read of `SRCW` can return. -/
theorem srcWord_mem (i : Nat) (s : State) : (srcWord i s).1 ∈ s.srcwAt i :: oldValues s.srcwOld i := by
  unfold srcWord
  split
  · exact List.mem_cons_self
  · exact raced_mem _ _ _

/-- A host write of a source element while a command runs keeps the value it replaces. -/
theorem oldValues_hostWriteSrc (hbusy : s.busy = true) (i : Nat) (b : Byte) :
    oldValues (hostWriteSrc i b s).srcOld i = s.srcAt i :: oldValues s.srcOld i := by
  simp [hostWriteSrc, hbusy, oldValues]

theorem oldValues_hostWriteSrcw (hbusy : s.busy = true) (i : Nat) (w : Half) :
    oldValues (hostWriteSrcw i w s).srcwOld i = s.srcwAt i :: oldValues s.srcwOld i := by
  simp [hostWriteSrcw, hbusy, oldValues]

/-! ### The command word of an instruction -/

/-- A command word is the encoding of what it decodes to (R91, R92). -/
theorem encode_decodeCommand (w : Byte) : encode (decodeCommand w) = .command w := by
  unfold decodeCommand
  split
  case h_17 =>
    repeat' split
    all_goals rfl
  all_goals
    next hw => exact congrArg Encoded.command (BitVec.eq_of_toNat_eq hw.symm)

/-- A command word decodes to a command exactly where it is that command's word. -/
theorem decodeCommand_eq_iff {w c : Byte} {i : Instr} (hi : decodeCommand c = i) : decodeCommand w = i ↔ w = c := by
  refine ⟨fun hw => ?_, fun hw => hw ▸ hi⟩
  have hcode : Encoded.command w = .command c := by
    rw [← encode_decodeCommand w, ← encode_decodeCommand c, hw, hi]
  exact Encoded.command.inj hcode

theorem decodeCommand_streamWrite_iff (w : Byte) : decodeCommand w = .streamWrite ↔ w = 0x04 :=
  decodeCommand_eq_iff rfl

theorem decodeCommand_streamRead_iff (w : Byte) : decodeCommand w = .streamRead ↔ w = 0x05 :=
  decodeCommand_eq_iff rfl

theorem decodeCommand_loadPlugin_iff (w : Byte) : decodeCommand w = .loadPlugin ↔ w = 0x0A :=
  decodeCommand_eq_iff rfl

theorem decodeCommand_loadApp_iff (w : Byte) : decodeCommand w = .loadApp ↔ w = 0x0B :=
  decodeCommand_eq_iff rfl

/-- The loaders by their command words. -/
theorem decodeCommand_loader_iff (w : Byte) :
    decodeCommand w ∈ [Instr.loadPlugin, .loadApp] ↔ w = 0x0A ∨ w = 0x0B := by
  rw [List.mem_pair, decodeCommand_loadPlugin_iff, decodeCommand_loadApp_iff]

/-- The commands whose errors write `XCOUNT`, by their command words (R257, R275). -/
theorem countsTransfers_iff (w : Byte) :
    countsTransfers w = true ↔ decodeCommand w ∈ [Instr.streamWrite, .streamRead, .loadPlugin, .loadApp] := by
  simp [countsTransfers, decodeCommand_streamWrite_iff, decodeCommand_streamRead_iff, decodeCommand_loadPlugin_iff,
    decodeCommand_loadApp_iff, or_assoc]

/-! ### Error entry -/

theorem raise_xcount (s : State) (e : ErrCode) (pos : Nat) :
    (raise e pos s).xcount = if countsTransfers s.lCmd then countRegister s.xc else s.xcount := by
  change ((if countsTransfers s.lCmd then some s.xc else none).map countRegister).getD s.xcount = _
  split <;> rfl

/-- A STREAM_READ that ends in an error puts the bytes received into `DST` (R78, R275). -/
theorem raise_dstAt_of_streamRead (e : ErrCode) (pos : Nat) (h : decodeCommand s.lCmd = .streamRead) (j : Nat) :
    (raise e pos s).dstAt j = (readBuffer s.dstIn j).getD (s.dstAt j) := by
  obtain ⟨-, hraise⟩ | ⟨hcmd, -⟩ := raise_cases s e pos
  · rw [hraise]
    exact commitDst_dstAt s j
  · exact absurd ((decodeCommand_streamRead_iff s.lCmd).1 h) hcmd

/-- The position a TIMEOUT records, by the running command (R275). -/
theorem posNow_eq (s : State) :
    s.posNow = if decodeCommand s.lCmd ∈ [Instr.loadPlugin, .loadApp] then s.cur else 0 := by
  simp only [State.posNow, decodeCommand_loader_iff, Bool.or_eq_true, beq_iff_eq]

end Sys2Proof.Machine
end

section
/-! SUPPORT. A gate that opens, the frames behind it, and the completion of a command made of them (R131, R141, R146,
R26). -/

namespace Sys2Proof.Machine

variable {s t : State} {r : List Micro} {k m n : Nat} {reg : Byte} {v : Half} {w : Written}

/-! ### The gate (R131) -/

/-- The READY answers after `k` low samples are the ones from there on. -/
theorem polledLow_readyAt (s : State) (k j : Nat) : (s.polledLow k).readyAt j = s.readyAt (k + j) := by
  simp [State.polledLow, State.readyAt, Nat.add_assoc]

theorem polledLow_zero (hpolls : s.polls = 0) : s.polledLow 0 = s := by
  obtain ⟨⟩ := s
  cases hpolls
  simp [State.polledLow]

/-- A sample of 0 after `k` low ones, not yet counted. -/
theorem sampleReady_polledLow_low (hlow : s.readyAt k = false) :
    (sampleReady (s.polledLow k)).2 = { s.polledLow (k + 1) with polls := k } := by
  have hready : (s.polledLow k).readyAt 0 = false := (polledLow_readyAt s k 0).trans hlow
  rw [sampleReady_eq, hready]
  simp [State.polledLow, List.replicate_succ', Nat.add_assoc]

/-- A sample of 1 after `k` low ones. -/
theorem sampleReady_polledLow_high (hhigh : s.readyAt k = true) :
    (sampleReady (s.polledLow k)).2 = s.gatePassed k := by
  have hready : (s.polledLow k).readyAt 0 = true := (polledLow_readyAt s k 0).trans hhigh
  rw [sampleReady_eq, hready]
  simp [State.polledLow, State.gatePassed, Nat.add_assoc]

/-- The engine step at the head of a gate's loop (R131). -/
theorem engineStep_gate_low (htodo : s.todo = .gate :: r) (hlow : s.readyAt 0 = false) :
    engineStep s = (sampleReady s).2.push [.polled] := by
  simp [engineStep_gate htodo, gateStep, hlow]

theorem engineStep_gate_high (htodo : s.todo = .gate :: r) (hhigh : s.readyAt 0 = true) :
    engineStep s = (sampleReady s).2.pop := by
  simp [engineStep_gate htodo, gateStep, hhigh]

/-- A low sample counted below the limit (R131). -/
theorem engineStep_polled_below (htodo : s.todo = .polled :: r)
    (hlimit : ∀ n, s.params.readyTimeout = some n → s.polls + 1 < n) :
    engineStep s = { s.pop with polls := s.polls + 1 } := by
  rw [engineStep_polled htodo]
  obtain ⟨⟨n, htimeout, hn⟩, -⟩ | ⟨-, hpoll⟩ := pollStep_cases s
  · exact absurd (hlimit n htimeout) (Nat.not_lt.2 hn)
  · exact hpoll

/-- One low sample more, counted below the limit, is two engine steps. -/
theorem runEngine_polledLow_succ (htodo : s.todo = .gate :: r) (hlow : s.readyAt k = false)
    (hlimit : ∀ n, s.params.readyTimeout = some n → k + 1 < n) :
    runEngine 2 (s.polledLow k) = s.polledLow (k + 1) := by
  rw [← runEngine_engineStep, ← runEngine_engineStep, runEngine_zero,
    engineStep_gate_low (s := s.polledLow k) htodo ((polledLow_readyAt s k 0).trans hlow),
    sampleReady_polledLow_low hlow]
  exact engineStep_polled_below (s := State.push { s.polledLow (k + 1) with polls := k } [.polled]) rfl hlimit

/-- Low samples below the limit leave the gate polling. -/
theorem runEngine_polledLow (htodo : s.todo = .gate :: r) (hpolls : s.polls = 0) (hlow : s.notReadyFor k)
    (hlimit : ∀ n, s.params.readyTimeout = some n → k < n) : runEngine (2 * k) s = s.polledLow k := by
  induction k with
  | zero => rw [polledLow_zero hpolls, Nat.mul_zero, runEngine_zero]
  | succ k ih =>
    have hbefore : runEngine (2 * k) s = s.polledLow k :=
      ih (fun j hj => hlow j (by omega)) fun n hn => Nat.lt_of_succ_lt (hlimit n hn)
    rw [Nat.mul_succ, runEngine_add, hbefore, runEngine_polledLow_succ htodo (hlow k (by omega)) hlimit]

/-- A gate that opens after `k` low samples. -/
theorem runEngine_gatePassed (htodo : s.todo = .gate :: r) (hpolls : s.polls = 0) (hgate : s.gateOpens k) :
    runEngine (2 * k + 1) s = (s.gatePassed k).pop := by
  obtain ⟨hlow, hhigh, hlimit⟩ := hgate
  rw [runEngine_add, runEngine_polledLow htodo hpolls hlow hlimit, ← runEngine_engineStep, runEngine_zero,
    engineStep_gate_high (s := s.polledLow k) htodo ((polledLow_readyAt s k 0).trans hhigh),
    sampleReady_polledLow_high hhigh]

/-! ### The frames (R141, R146) -/

/-- The items of a control frame after its gate, by the bytes sent and where the last two received go. -/
def frameItems (op reg b2 b3 : Byte) (d2 d3 : Dest) : List Micro :=
  [.sel .cmd false, .xfer op .discard, .xfer reg .discard, .xfer b2 d2, .xfer b3 d3, .sel .cmd true]

/-- After the bracket of a control frame: its six events, and four bytes received. -/
def State.framed (s : State) (op reg b2 b3 : Byte) : State :=
  { s with
    misoIn := s.misoIn.drop 4
    misoCount := s.misoCount + 4
    csCmd := .high
    trace := s.trace ++
      [.sel .cmd false, .xfer op (s.misoAt 0), .xfer reg (s.misoAt 1), .xfer b2 (s.misoAt 2), .xfer b3 (s.misoAt 3),
       .sel .cmd true] }

/-- A byte received is kept in the register it is meant for, if any (R96). -/
theorem keepByte_eq (d : Dest) (b : Byte) (s : State) :
    keepByte d b s = { s with hi := if d = .hi then b else s.hi, lo := if d = .lo then b else s.lo } := by
  cases d <;> rfl

/-- One byte of a control frame. -/
theorem runEngine_xfer {b : Byte} {d : Dest} (htodo : s.todo = .xfer b d :: r) :
    runEngine (n + 1) s = runEngine n
      { (transfer b s).2 with
        todo := r, hi := if d = .hi then s.misoAt 0 else s.hi, lo := if d = .lo then s.misoAt 0 else s.lo } := by
  rw [← runEngine_engineStep, engineStep_xfer htodo, keepByte_eq, State.pop, htodo]
  rfl

/-- An edge of `CS_CMD`. -/
theorem runEngine_sel_cmd {high : Bool} (htodo : s.todo = .sel .cmd high :: r) :
    runEngine (n + 1) s = runEngine n
      { s with todo := r, csCmd := if high then .high else .low, trace := s.trace ++ [.sel .cmd high] } := by
  rw [← runEngine_engineStep, engineStep_sel htodo, State.pop, htodo]
  rfl

/-- The six engine steps of a control frame's bracket. -/
theorem runEngine_framed {op b2 b3 : Byte} {d2 d3 : Dest} (htodo : s.todo = frameItems op reg b2 b3 d2 d3 ++ r) :
    runEngine 6 s =
      keepByte d3 (s.misoAt 3) (keepByte d2 (s.misoAt 2) ((s.framed op reg b2 b3).withTodo r)) := by
  rw [runEngine_sel_cmd htodo, runEngine_xfer rfl, runEngine_xfer rfl, runEngine_xfer rfl, runEngine_xfer rfl,
    runEngine_sel_cmd rfl, runEngine_zero]
  simp [keepByte_eq, transfer, State.framed, State.withTodo, State.misoAt, ← List.drop_one]

/-- A control frame with its gate, from the polling loop on. -/
theorem runEngine_gated_frame {op b2 b3 : Byte} {d2 d3 : Dest} (hgate : s.gateOpens k) :
    runEngine (2 * k + 7) (s.gated (frameItems op reg b2 b3 d2 d3)) =
      keepByte d3 (s.misoAt 3) (keepByte d2 (s.misoAt 2) ((s.gatePassed k).framed op reg b2 b3)) := by
  have hsteps : 2 * k + 7 = 2 * k + 1 + 6 := rfl
  rw [hsteps, runEngine_add, runEngine_gatePassed (s := s.gated _) rfl rfl hgate, runEngine_framed (r := s.todo) rfl]
  rfl

/-- `CtrlWrite(reg, v)` after its first engine step (R141). -/
theorem runEngine_startSciW (reg : Byte) (v : Half) (hgate : s.gateOpens k) :
    runEngine (2 * k + 7) (startSciW reg v s) = s.wroteFrame k reg v := by
  have hframe : startSciW reg v s = s.gated (frameItems 0x02 reg (hi8 v) (lo8 v) .discard .discard) := rfl
  rw [hframe, runEngine_gated_frame hgate]
  simp [keepByte, State.framed, State.gatePassed, State.wroteFrame, State.misoAt]

/-- `CtrlRead(reg)` after its first engine step (R146). -/
theorem runEngine_startSciR (reg : Byte) (hgate : s.gateOpens k) :
    runEngine (2 * k + 7) (startSciR reg s) = s.didReadFrame k reg := by
  have hframe : startSciR reg s = s.gated (frameItems 0x03 reg 0xFF 0xFF .hi .lo) := rfl
  rw [hframe, runEngine_gated_frame hgate]
  simp [keepByte, State.framed, State.gatePassed, State.didReadFrame, State.misoAt]

/-- A control write met in the pseudocode. -/
theorem runEngine_writeFrame (htodo : s.todo = .writeFrame reg v :: r) (hgate : s.gateOpens k) :
    runEngine (2 * k + 8) s = (s.wroteFrame k reg v).pop := by
  rw [← runEngine_engineStep, engineStep_writeFrame htodo, runEngine_startSciW (s := s.pop) reg v hgate]
  rfl

/-- A control read met in the pseudocode. -/
theorem runEngine_readFrame (htodo : s.todo = .readFrame reg :: r) (hgate : s.gateOpens k) :
    runEngine (2 * k + 8) s = (s.didReadFrame k reg).pop := by
  rw [← runEngine_engineStep, engineStep_readFrame htodo, runEngine_startSciR (s := s.pop) reg hgate]
  rfl

/-- Two control writes in a row. -/
theorem runEngine_writeFrame_writeFrame {j : Nat} {reg' : Byte} {v' : Half}
    (htodo : s.todo = .writeFrame reg v :: .writeFrame reg' v' :: r) (hfirst : s.gateOpens j)
    (hsecond : (s.wroteFrame j reg v).gateOpens k) :
    runEngine (2 * (j + k) + 16) s = ((s.wroteFrame j reg v).pop.wroteFrame k reg' v').pop := by
  have hsteps : 2 * (j + k) + 16 = 2 * j + 8 + (2 * k + 8) := by omega
  rw [hsteps, runEngine_add, runEngine_writeFrame htodo hfirst]
  exact runEngine_writeFrame (congrArg List.tail htodo) hsecond

/-- A control write and then a control read. -/
theorem runEngine_writeFrame_readFrame {j : Nat} {reg' : Byte}
    (htodo : s.todo = .writeFrame reg v :: .readFrame reg' :: r) (hfirst : s.gateOpens j)
    (hsecond : (s.wroteFrame j reg v).gateOpens k) :
    runEngine (2 * (j + k) + 16) s = ((s.wroteFrame j reg v).pop.didReadFrame k reg').pop := by
  have hsteps : 2 * (j + k) + 16 = 2 * j + 8 + (2 * k + 8) := by omega
  rw [hsteps, runEngine_add, runEngine_writeFrame htodo hfirst]
  exact runEngine_readFrame (congrArg List.tail htodo) hsecond

/-- The chip's bytes after a control write are the ones from the fifth on. -/
theorem wroteFrame_misoAt (s : State) (k : Nat) (reg : Byte) (v : Half) (j : Nat) :
    (s.wroteFrame k reg v).misoAt j = s.misoAt (4 + j) := by
  simp [State.wroteFrame, State.misoAt, Nat.add_assoc]

/-! ### The completion (R26) -/

/-- A turn long enough for what stands before a completion ends with that completion. -/
theorem runEngine_completes (hrun : runEngine m s = t) (htodo : t.todo = .complete w :: r) (hm : m < n) :
    runEngine n s = complete w t := by
  obtain ⟨d, rfl⟩ := Nat.exists_eq_add_of_lt hm
  rw [Nat.add_assoc, runEngine_add, hrun, ← runEngine_engineStep, engineStep_complete htodo,
    runEngine_idle _ (complete_todo t w)]

/-- A command that runs, its first engine step laying out `ms`. -/
theorem exec_of_start {i : Instr} {ms : List Micro} (hstart : startOf i s = s.push ms)
    (hrun : runEngine s.grant (s.push ms) = t) : exec i s = .next t := by
  rw [exec_eq, hstart]
  exact congrArg Host.Outcome.next hrun

/-- `s` with what a control transaction writes taken from `t`. -/
def State.withControl (s t : State) : State :=
  { s with
    csCmd := t.csCmd, lastRdy := t.lastRdy, polls := t.polls, hi := t.hi, lo := t.lo, rd := t.rd, todo := t.todo
    trace := t.trace, rdyIn := t.rdyIn, rdyCount := t.rdyCount, misoIn := t.misoIn, misoCount := t.misoCount
    err := t.err, errPos := t.errPos, result := t.result, xcount := t.xcount
    dstIn := t.dstIn, srcOld := t.srcOld, srcwOld := t.srcwOld, completions := t.completions }

/-- A control transaction leaves everything around it. -/
theorem sameAround_of_control (h : t = s.withControl t) : s.sameAround t := by
  rw [h]
  exact ⟨rfl, rfl, rfl, rfl, rfl, rfl, rfl, rfl, rfl, rfl, rfl, rfl, rfl, rfl, rfl, rfl,
    ⟨fun _ => rfl, fun _ => rfl, fun _ => rfl⟩, rfl, rfl⟩

/-! ### RAM window commands (R180-R184) -/

theorem startOf_ramWrite (hinit : s.initDone = true) :
    startOf .ramWrite s = s.push [.writeFrame s.params.regWramAddr s.lA, .writeFrame s.params.regWram s.lB,
      .complete .nothing] :=
  if_pos hinit

theorem startOf_ramRead (hinit : s.initDone = true) :
    startOf .ramRead s = s.push [.writeFrame s.params.regWramAddr s.lA, .readFrame s.params.regWram,
      .complete .readValue] :=
  if_pos hinit

end Sys2Proof.Machine
end

section
/-! The statements of spec/20_memory.md. -/

namespace Sys2Proof.Machine

/-- Settles O15: a read returns one of the values it may choose from, and one host write adds the value it replaces. -/
theorem racedReadIsOldOrNew : Obligations.RacedReadIsOldOrNew := by
  refine ⟨fun s i => List.mem_cons.1 (srcByte_mem i s), fun s i => List.mem_cons.1 (srcWord_mem i s),
    fun s i b hbusy hold => ?_, fun s i w hbusy hold => ?_⟩
  · have hread := srcByte_mem i (hostWriteSrc i b s)
    rw [srcAt_write_same, oldValues_hostWriteSrc hbusy, hold] at hread
    exact List.mem_pair.1 hread
  · have hread := srcWord_mem i (hostWriteSrcw i w s)
    rw [srcwAt_write_same, oldValues_hostWriteSrcw hbusy, hold] at hread
    exact List.mem_pair.1 hread

/-- Settles O4, the bits by their place in the byte, the wires by the rising edge in each clock period. -/
theorem transferBitsAreMsbFirst : Obligations.TransferBitsAreMsbFirst := by
  refine ⟨fun b => ⟨misoByte_mosiBits b, mosiBits_length b, fun k => mosiBits_getElem? b⟩,
    fun b r first second => ⟨transferPhases_length b first second, fun k hk => ?_,
      sampledMosi_transferPhases b first second, sampledMiso_transferPhases b r⟩, fun s hspi => if_pos hspi⟩
  obtain ⟨hlow, hhigh⟩ := transferPhases_period b first second hk
  exact ⟨_, _, hlow, rfl, hhigh, rfl⟩

/-- Settles O27, `XCOUNT`, `DST` and the position by the command word, the rest by what error entry writes. -/
theorem errorEntry : Obligations.ErrorEntry := by
  intro s e pos
  refine ⟨rfl, rfl, rfl, rfl, ?_, rfl, raise_dst e pos, raise_dstAt_of_streamRead e pos, posNow_eq s⟩
  simp only [raise_xcount, countsTransfers_iff]

/-- Settles O40: the address frame, the data frame and the completion, one after the other in one turn. -/
theorem ramWriteCompletes : Obligations.RamWriteCompletes := by
  intro s j k hinit haddr hdata hgrant
  exact ⟨_, exec_of_start (startOf_ramWrite hinit)
      (runEngine_completes (runEngine_writeFrame_writeFrame rfl haddr hdata) rfl (by omega)),
    rfl, rfl, rfl, rfl, rfl, rfl, sameAround_of_control rfl⟩

/-- Settles O41: the same with a read of the data register, whose two bytes are the chip's seventh and eighth. -/
theorem ramReadCompletes : Obligations.RamReadCompletes := by
  intro s j k hinit haddr hdata hgrant
  have hresult : ((s.wroteFrame j s.params.regWramAddr s.lA).didReadFrame k s.params.regWram).readBack =
      cat16 (s.misoAt 6) (s.misoAt 7) :=
    congrArg₂ cat16 (wroteFrame_misoAt s j _ _ 2) (wroteFrame_misoAt s j _ _ 3)
  exact ⟨_, exec_of_start (startOf_ramRead hinit)
      (runEngine_completes (runEngine_writeFrame_readFrame rfl haddr hdata) rfl (by omega)),
    rfl, rfl, rfl, hresult, rfl, rfl, sameAround_of_control rfl⟩

end Sys2Proof.Machine
end

section
/-! SUPPORT. The decoder and the encoder, format by format (R90-R106): the rows that stand for a range of bytes by their
leading bit, and what each decoder reads. -/

namespace Sys2Proof.Machine

variable {i : Instr} {b w : Byte}

/-! ### The rows that stand for a range of bytes (R92, R104) -/

/-- A byte lies in a row told by leading bit `k` where that bit is its highest. -/
theorem inRow_leadingBit {k : Nat} (hk : k < 8) (b : Byte) :
    inRow (BitVec.allOnes 8 <<< k) (1#8 <<< k) b = true ↔ b.toNat / 2 ^ k = 1 := by
  have hpos : 0 < 2 ^ k := Nat.two_pow_pos k
  have hpow : 2 ^ k < 2 ^ 8 := Nat.pow_lt_pow_right (by decide) hk
  have hle : b.toNat / 2 ^ k * 2 ^ k ≤ b.toNat := Nat.div_mul_le_self _ _
  have hlt : b.toNat / 2 ^ k * 2 ^ k < 2 ^ 8 := hle.trans_lt b.isLt
  rw [inRow, beq_iff_eq, ← BitVec.shiftLeft_ushiftRight, ← BitVec.toNat_inj]
  simp only [BitVec.toNat_shiftLeft, BitVec.toNat_ushiftRight, Nat.shiftLeft_eq, Nat.shiftRight_eq_div_pow,
    Nat.mod_eq_of_lt hlt, BitVec.toNat_ofNat]
  rw [Nat.mod_eq_of_lt (by decide : 1 < 2 ^ 8), one_mul, Nat.mod_eq_of_lt hpow, Nat.mul_eq_right hpos.ne']

theorem inRow_80 (b : Byte) : inRow 0x80 0x80 b = true ↔ b.toNat / 128 = 1 := inRow_leadingBit (k := 7) (by decide) b
theorem inRow_40 (b : Byte) : inRow 0xC0 0x40 b = true ↔ b.toNat / 64 = 1 := inRow_leadingBit (k := 6) (by decide) b
theorem inRow_20 (b : Byte) : inRow 0xE0 0x20 b = true ↔ b.toNat / 32 = 1 := inRow_leadingBit (k := 5) (by decide) b
theorem inRow_10 (b : Byte) : inRow 0xF0 0x10 b = true ↔ b.toNat / 16 = 1 := inRow_leadingBit (k := 4) (by decide) b
theorem inRow_08 (b : Byte) : inRow 0xF8 0x08 b = true ↔ b.toNat / 8 = 1 := inRow_leadingBit (k := 3) (by decide) b
theorem inRow_04 (b : Byte) : inRow 0xFC 0x04 b = true ↔ b.toNat / 4 = 1 := inRow_leadingBit (k := 2) (by decide) b

/-! ### Command words (R91, R92) -/

/-- A command word with a bit above bit 3 is told by its highest bit alone. -/
theorem decodeCommand_of_high (h : 16 ≤ w.toNat) :
    decodeCommand w =
      if inRow 0x80 0x80 w then .illegalHigh80 w
      else if inRow 0xC0 0x40 w then .illegalHigh40 w
      else if inRow 0xE0 0x20 w then .illegalHigh20 w
      else .illegalHigh10 w := by
  unfold decodeCommand
  split
  case h_17 => rfl
  all_goals omega

theorem decodeCommand_wellFormed (w : Byte) : (decodeCommand w).wellFormed = true := by
  have hw := w.isLt
  by_cases hhigh : 16 ≤ w.toNat
  · rw [decodeCommand_of_high hhigh]
    split
    · assumption
    split
    · assumption
    split
    · assumption
    · simp only [inRow_80, inRow_40, inRow_20] at *
      exact (inRow_10 w).2 (by omega)
  · unfold decodeCommand
    split
    case h_17 =>
      simp only [imp_false] at *
      omega
    all_goals rfl
theorem decodeCommand_row80 (h : inRow 0x80 0x80 w = true) : decodeCommand w = .illegalHigh80 w := by
  rw [inRow_80] at h
  simp only [decodeCommand_of_high (w := w) (by omega), inRow_80, inRow_40, inRow_20]
  rw [if_pos h]

theorem decodeCommand_row40 (h : inRow 0xC0 0x40 w = true) : decodeCommand w = .illegalHigh40 w := by
  rw [inRow_40] at h
  simp only [decodeCommand_of_high (w := w) (by omega), inRow_80, inRow_40, inRow_20]
  rw [if_neg (by omega), if_pos h]

theorem decodeCommand_row20 (h : inRow 0xE0 0x20 w = true) : decodeCommand w = .illegalHigh20 w := by
  rw [inRow_20] at h
  simp only [decodeCommand_of_high (w := w) (by omega), inRow_80, inRow_40, inRow_20]
  rw [if_neg (by omega), if_neg (by omega), if_pos h]

theorem decodeCommand_row10 (h : inRow 0xF0 0x10 w = true) : decodeCommand w = .illegalHigh10 w := by
  rw [inRow_10] at h
  simp only [decodeCommand_of_high (w := w) (by omega), inRow_80, inRow_40, inRow_20]
  rw [if_neg (by omega), if_neg (by omega), if_neg (by omega)]

/-! ### Bytes of a type above 3 (R104) -/

theorem decodeBadType_wellFormed (h : 3 < b.toNat) : (decodeBadType b).wellFormed = true := by
  have hb := b.isLt
  unfold decodeBadType
  split
  · assumption
  split
  · assumption
  split
  · assumption
  split
  · assumption
  split
  · assumption
  · simp only [inRow_80, inRow_40, inRow_20, inRow_10, inRow_08] at *
    exact (inRow_04 b).2 (by omega)

theorem encode_decodeBadType (b : Byte) : encode (decodeBadType b) = .app [b] := by
  unfold decodeBadType
  repeat' split
  all_goals rfl

theorem decodeApp_badType (h : 3 < b.toNat) (rest : List Byte) : decodeApp (b :: rest) = .ok (decodeBadType b) :=
  if_pos h

theorem decodeApp_row80 (h : inRow 0x80 0x80 b = true) (rest : List Byte) :
    decodeApp (b :: rest) = .ok (.appTypeIllegal80 b) := by
  rw [inRow_80] at h
  simp only [decodeApp_badType (b := b) (by omega), decodeBadType, inRow_80, inRow_40, inRow_20, inRow_10, inRow_08]
  rw [if_pos h]

theorem decodeApp_row40 (h : inRow 0xC0 0x40 b = true) (rest : List Byte) :
    decodeApp (b :: rest) = .ok (.appTypeIllegal40 b) := by
  rw [inRow_40] at h
  simp only [decodeApp_badType (b := b) (by omega), decodeBadType, inRow_80, inRow_40, inRow_20, inRow_10, inRow_08]
  rw [if_neg (by omega), if_pos h]

theorem decodeApp_row20 (h : inRow 0xE0 0x20 b = true) (rest : List Byte) :
    decodeApp (b :: rest) = .ok (.appTypeIllegal20 b) := by
  rw [inRow_20] at h
  simp only [decodeApp_badType (b := b) (by omega), decodeBadType, inRow_80, inRow_40, inRow_20, inRow_10, inRow_08]
  rw [if_neg (by omega), if_neg (by omega), if_pos h]

theorem decodeApp_row10 (h : inRow 0xF0 0x10 b = true) (rest : List Byte) :
    decodeApp (b :: rest) = .ok (.appTypeIllegal10 b) := by
  rw [inRow_10] at h
  simp only [decodeApp_badType (b := b) (by omega), decodeBadType, inRow_80, inRow_40, inRow_20, inRow_10, inRow_08]
  rw [if_neg (by omega), if_neg (by omega), if_neg (by omega), if_pos h]

theorem decodeApp_row08 (h : inRow 0xF8 0x08 b = true) (rest : List Byte) :
    decodeApp (b :: rest) = .ok (.appTypeIllegal08 b) := by
  rw [inRow_08] at h
  simp only [decodeApp_badType (b := b) (by omega), decodeBadType, inRow_80, inRow_40, inRow_20, inRow_10, inRow_08]
  rw [if_neg (by omega), if_neg (by omega), if_neg (by omega), if_neg (by omega), if_pos h]

theorem decodeApp_row04 (h : inRow 0xFC 0x04 b = true) (rest : List Byte) :
    decodeApp (b :: rest) = .ok (.appTypeIllegal04 b) := by
  rw [inRow_04] at h
  simp only [decodeApp_badType (b := b) (by omega), decodeBadType, inRow_80, inRow_40, inRow_20, inRow_10, inRow_08]
  rw [if_neg (by omega), if_neg (by omega), if_neg (by omega), if_neg (by omega), if_neg (by omega)]

/-! ### The header word of a plugin record (R99) -/

theorem pluginHeader_form (rle : Bool) (count : BitVec 15) : (pluginHeader rle count).getLsbD 15 = rle := by
  rw [pluginHeader, BitVec.getLsbD_append]
  cases rle <;> rfl

theorem pluginHeader_count (rle : Bool) (count : BitVec 15) : (pluginHeader rle count).extractLsb' 0 15 = count :=
  BitVec.extractLsb'_append_eq_right

/-- A header word is the form in its bit 15 and the count in the bits below. -/
theorem pluginHeader_fields (h : Half) : pluginHeader (h.getLsbD 15) (h.extractLsb' 0 15) = h := by
  refine BitVec.eq_of_getLsbD_eq fun k hk => ?_
  rw [pluginHeader, BitVec.getLsbD_append, BitVec.getLsbD_extractLsb']
  by_cases hlow : k < 15
  · simp [hlow]
  · obtain rfl : k = 15 := by omega
    simp

theorem decodePlugin_rle {a h : Half} (hrle : h.getLsbD 15 = true) (value : Half) (rest : List Half) :
    decodePlugin (a :: h :: value :: rest) = .ok (.pluginRle a (h.extractLsb' 0 15) value) := by
  simp only [decodePlugin, hrle, if_true]

/-! ### The round trips -/

/-- Every row's encoding decodes to it: a fixed code by evaluation, a range by its leading bit, a record by its
fields. -/
theorem decode_encode (h : i.wellFormed = true) : decode (encode i) = .ok i := by
  cases i with
  | waitReady | ctrlWrite | ctrlRead | streamWrite | streamRead | ramWrite | ramRead | regSetBits | regClearBits
  | loadPlugin | loadApp | init | hardReset | illegal00 | illegal0E | illegal0F => rfl
  | illegalHigh80 w => exact congrArg Except.ok (decodeCommand_row80 h)
  | illegalHigh40 w => exact congrArg Except.ok (decodeCommand_row40 h)
  | illegalHigh20 w => exact congrArg Except.ok (decodeCommand_row20 h)
  | illegalHigh10 w => exact congrArg Except.ok (decodeCommand_row10 h)
  | sciW reg v => simp [encode, decode, decodeWire]
  | sciR reg | sdiWriteByte b | sdiReadByte | appMagic => rfl
  | pluginLit addr count =>
    simp [encode, decode, decodePlugin_lit (pluginHeader_form false count), pluginHeader_count]
  | pluginRle addr count value =>
    simp [encode, decode, decodePlugin_rle (pluginHeader_form true count), pluginHeader_count]
  | appDataT0 len addr | appDataT1 len addr | appDataT2 len addr | appExec len addr =>
    simp [encode, decode, appHeader, decodeApp]
  | appTypeIllegal80 b => exact decodeApp_row80 h []
  | appTypeIllegal40 b => exact decodeApp_row40 h []
  | appTypeIllegal20 b => exact decodeApp_row20 h []
  | appTypeIllegal10 b => exact decodeApp_row10 h []
  | appTypeIllegal08 b => exact decodeApp_row08 h []
  | appTypeIllegal04 b => exact decodeApp_row04 h []

/-- A frame that decodes is well-formed and is its instruction's encoding. -/
theorem encode_of_decodeWire {bytes : List Byte} (h : decodeWire bytes = .ok i) :
    i.wellFormed = true ∧ encode i = .wire bytes := by
  unfold decodeWire at h
  split at h
  · next op reg b2 b3 =>
    split at h
    · next hop =>
      cases h
      simp [Instr.wellFormed, encode, hop]
    split at h
    · next hop =>
      split at h
      · next hfiller =>
        cases h
        simp [Instr.wellFormed, encode, hop, hfiller]
      · cases h
    · cases h
  · cases h

/-- A plugin record that decodes begins with its instruction's encoding. -/
theorem encode_of_decodePlugin {words : List Half} (h : decodePlugin words = .ok i) :
    i.wellFormed = true ∧ ∃ e rest, encode i = .plugin e ∧ words = e ++ rest := by
  match words with
  | [] | [_] => cases h
  | addr :: header :: rest =>
    have hfields := pluginHeader_fields header
    cases hform : header.getLsbD 15 with
    | false =>
      rw [decodePlugin_lit hform] at h
      cases h
      rw [hform] at hfields
      exact ⟨rfl, _, rest, rfl, by rw [hfields]; rfl⟩
    | true =>
      cases rest with
      | nil =>
        rw [decodePlugin_rle_short hform] at h
        cases h
      | cons value rest =>
        rw [decodePlugin_rle hform] at h
        cases h
        rw [hform] at hfields
        exact ⟨rfl, _, rest, rfl, by rw [hfields]; rfl⟩

/-- A marker that decodes is the three bytes of the encoding and what follows them. -/
theorem encode_of_decodeMagic {bytes : List Byte} (h : decodeMagic bytes = .ok i) :
    i.wellFormed = true ∧ ∃ e rest, encode i = .magic e ∧ bytes = e ++ rest := by
  unfold decodeMagic at h
  split at h
  · next b0 b1 b2 rest =>
    split at h
    · next hmarker =>
      cases h
      obtain ⟨rfl, rfl, rfl⟩ := hmarker
      exact ⟨rfl, _, rest, rfl, rfl⟩
    · cases h
  · cases h

/-- A type byte of at most 3 is one of the four types. -/
theorem type_cases (h : ¬ 3 < b.toNat) : b = 0 ∨ b = 1 ∨ b = 2 ∨ b = 3 := by
  have hnat : b.toNat = 0 ∨ b.toNat = 1 ∨ b.toNat = 2 ∨ b.toNat = 3 := by omega
  simpa [← BitVec.toNat_inj] using hnat

/-- An application record that decodes begins with its instruction's encoding: its type where that is above 3, else its
header. -/
theorem encode_of_decodeApp {bytes : List Byte} (h : decodeApp bytes = .ok i) :
    i.wellFormed = true ∧ ∃ e rest, encode i = .app e ∧ bytes = e ++ rest := by
  match bytes with
  | [] => cases h
  | t :: rest =>
    by_cases htype : 3 < t.toNat
    · rw [decodeApp_badType htype] at h
      cases h
      exact ⟨decodeBadType_wellFormed htype, [t], rest, encode_decodeBadType t, rfl⟩
    · match rest with
      | [] | [_] | [_, _] | [_, _, _] => simp [decodeApp, htype] at h
      | l1 :: l0 :: a1 :: a0 :: rest =>
        obtain rfl | rfl | rfl | rfl := type_cases htype
        all_goals
          cases h
          exact ⟨rfl, _, rest, rfl, by simp [appHeader]⟩

end Sys2Proof.Machine
end

section
/-! SUPPORT. Lists of control writes (R141), the loops of the loaders (R203, R204, R227) and the records they carry out
(R205, R231). -/

namespace Sys2Proof.Machine

variable {s t u w : State} {r : List Micro} {fs gs : List GatedFrame} {i : Instr} {n : Nat}

/-! ### Turns that go on, and turns that complete -/

theorem startOf_grant (i : Instr) (s : State) : (startOf i s).grant = s.grant :=
  (congrArg State.grant (startOf_withGrant (s := s) (g := s.grant) i) :)

/-- A turn longer than what the object needs goes on with the steps left. -/
theorem exec_goes_on (hrun : runEngine n (startOf i s) = t) (hn : n ≤ s.grant) :
    exec i s = .next (runEngine (s.grant - n) t) := by
  rw [exec_eq, startOf_grant, ← hrun, ← runEngine_add, Nat.add_sub_cancel' hn]

/-- A turn long enough for the object and its completion. -/
theorem exec_completes {c : Written} (hrun : runEngine n (startOf i s) = t) (htodo : t.todo = .complete c :: r)
    (hn : n < s.grant) : exec i s = .next (complete c t) := by
  rw [exec_eq, startOf_grant, runEngine_completes hrun htodo hn]

/-- An object whose first engine step ends the command. -/
theorem exec_ends (hstart : startOf i s = t) (htodo : t.todo = []) : exec i s = .next t := by
  rw [exec_eq, hstart, runEngine_idle _ htodo]

/-- An object that leads to a completion leads to it in every turn from some length on. -/
theorem exec_eventually {c : Written} (hrun : ∃ n, runEngine n (startOf i s) = complete c t) :
    ∃ n, ∀ g, n ≤ g → exec i (s.withGrant g) = .next ((complete c t).withGrant g) := by
  obtain ⟨n, hn⟩ := hrun
  refine ⟨n, fun g hg => ?_⟩
  obtain ⟨d, rfl⟩ := Nat.exists_eq_add_of_le hg
  rw [exec_eq, startOf_grant, startOf_withGrant, runEngine_withGrant]
  change Host.Outcome.next ((runEngine (n + d) _).withGrant _) = _
  rw [runEngine_add, hn, runEngine_idle _ (complete_todo t c)]

/-! ### Lists of control writes (R141) -/

/-- `s` with what a loader computes between its control writes taken from `t`. -/
def State.withRecord (s t : State) : State :=
  { s with
    todo := t.todo, cur := t.cur, recAddr := t.recAddr, recHdr := t.recHdr, recCnt := t.recCnt
    recVal := t.recVal, recType := t.recType, recLen := t.recLen, xc := t.xc }

/-- `s` with what control writes change taken from `t`. -/
def State.withFrames (s t : State) : State :=
  { s with
    csCmd := t.csCmd, lastRdy := t.lastRdy, polls := t.polls, trace := t.trace
    rdyIn := t.rdyIn, rdyCount := t.rdyCount, misoIn := t.misoIn, misoCount := t.misoCount }

/-- Control writes read and change those fields alone. -/
theorem wroteFrames_withFrames (s t : State) (fs : List GatedFrame) :
    (s.withFrames t).wroteFrames fs = s.withFrames (t.wroteFrames fs) := by
  induction fs generalizing t with
  | nil => rfl
  | cons f fs ih => exact ih (t.wroteFrame f.1 f.2.1 f.2.2)

theorem wroteFrames_frame (s : State) (fs : List GatedFrame) : s.wroteFrames fs = s.withFrames (s.wroteFrames fs) :=
  wroteFrames_withFrames s s fs

theorem wroteFrames_append (s : State) (fs gs : List GatedFrame) :
    s.wroteFrames (fs ++ gs) = (s.wroteFrames fs).wroteFrames gs := by
  induction fs generalizing s with
  | nil => rfl
  | cons f fs ih => exact ih (s.wroteFrame f.1 f.2.1 f.2.2)

/-- Whether gates open depends on the READY answers and the parameters. -/
theorem framesOpen_withFrames (hparams : t.params = s.params) : (s.withFrames t).framesOpen fs ↔ t.framesOpen fs := by
  induction fs generalizing t with
  | nil => rfl
  | cons f fs ih =>
    have hgate : (s.withFrames t).gateOpens f.1 ↔ t.gateOpens f.1 := by
      simp only [State.gateOpens, hparams]
      rfl
    exact and_congr hgate (ih (t := t.wroteFrame f.1 f.2.1 f.2.2) hparams)

theorem framesOpen_append : s.framesOpen (fs ++ gs) ↔ s.framesOpen fs ∧ (s.wroteFrames fs).framesOpen gs := by
  induction fs generalizing s with
  | nil => exact ⟨fun h => ⟨trivial, h⟩, And.right⟩
  | cons f fs ih => exact (and_congr_right' ih).trans and_assoc.symm

theorem lowSamples_append (fs gs : List GatedFrame) : lowSamples (fs ++ gs) = lowSamples fs + lowSamples gs := by
  simp [lowSamples]

/-- A list of control writes whose writes fall into two parts falls into two parts. -/
theorem plainFrames_eq_append {ps qs : List (Byte × Half)} (h : plainFrames fs = ps ++ qs) :
    ∃ fs₁ fs₂, fs = fs₁ ++ fs₂ ∧ plainFrames fs₁ = ps ∧ plainFrames fs₂ = qs :=
  List.map_eq_append_iff.1 h

/-- A list of control writes whose first write is known. -/
theorem plainFrames_eq_cons {p : Byte × Half} {ps : List (Byte × Half)} (h : plainFrames fs = p :: ps) :
    ∃ k fs', fs = (k, p) :: fs' ∧ plainFrames fs' = ps := by
  obtain ⟨⟨k, q⟩, fs', rfl, rfl, rfl⟩ := List.map_eq_cons_iff.1 h
  exact ⟨k, fs', rfl, rfl⟩

/-! ### The data loop of a record (R203, R204, R227) -/

/-- `u`, with the control writes of `w` made, at repetition `j` of its data loop, the pseudocode still to be run being
`ms`. -/
def State.inLoop (u w : State) (j : Nat) (v : Half) (ms : List Micro) : State :=
  { u.withFrames w with xc := u.xc + j, recVal := v, todo := ms }

/-- The items `item j` are a loop of `n` writes of the RAM-data register, write `j` being that of `f j`. A repetition
takes `c` engine steps before its write and leaves `val (j + 1)` in `REC_VAL`. -/
structure State.DataLoop (u : State) (item : Nat → Micro) (c n : Nat) (f val : Nat → Half) : Prop where
  next : ∀ (w : State) (r : List Micro) (j : Nat), j < n →
    runEngine c (u.inLoop w j (val j) (item j :: r)) =
      u.inLoop w j (val (j + 1)) (.writeFrame u.params.regWram (f j) :: .countData :: item (j + 1) :: r)
  last : ∀ (w : State) (r : List Micro), engineStep (u.inLoop w n (val n) (item n :: r)) = u.inLoop w n (val n) r

section
variable {item : Nat → Micro} {c : Nat} {f val : Nat → Half}

/-- One write of a data loop, and its count. -/
theorem runEngine_dataWrite {k j : Nat} {v x : Half} {m : Micro} (hgate : (u.withFrames w).gateOpens k) :
    runEngine (2 * k + 9) (u.inLoop w j x (.writeFrame u.params.regWram v :: .countData :: m :: r)) =
      u.inLoop (w.wroteFrame k u.params.regWram v) (j + 1) x (m :: r) := by
  have hsteps : 2 * k + 9 = 2 * k + 8 + 1 := rfl
  rw [hsteps, runEngine_add, runEngine_writeFrame (s := u.inLoop w j x _) rfl hgate, ← runEngine_engineStep,
    runEngine_zero]
  exact engineStep_countData rfl

/-- The first `m` repetitions of a data loop. -/
theorem State.DataLoop.run_first (hloop : u.DataLoop item c n f val) {m : Nat} (hm : m ≤ n)
    (hfs : plainFrames fs = firstOf (fun j => (u.params.regWram, f j)) m) (hopen : (u.withFrames w).framesOpen fs) :
    runEngine (2 * lowSamples fs + (9 + c) * m) (u.inLoop w 0 (val 0) (item 0 :: r)) =
      u.inLoop (w.wroteFrames fs) m (val m) (item m :: r) := by
  induction m generalizing fs with
  | zero =>
    obtain rfl : fs = [] := List.map_eq_nil_iff.1 hfs
    rfl
  | succ m ih =>
    rw [firstOf_succ] at hfs
    obtain ⟨gs, hs, rfl, hgs, hlast⟩ := plainFrames_eq_append hfs
    obtain ⟨k, fs', rfl, hnil⟩ := plainFrames_eq_cons hlast
    obtain rfl : fs' = [] := List.map_eq_nil_iff.1 hnil
    obtain ⟨hopens, hgate, -⟩ := framesOpen_append.1 hopen
    rw [wroteFrames_withFrames] at hgate
    have hsteps : 2 * lowSamples (gs ++ [(k, u.params.regWram, f m)]) + (9 + c) * (m + 1) =
        2 * lowSamples gs + (9 + c) * m + (c + (2 * k + 9)) := by
      rw [lowSamples_append, Nat.mul_succ]
      simp only [lowSamples, List.map_cons, List.map_nil, List.sum_cons, List.sum_nil]
      omega
    rw [hsteps, runEngine_add, ih (by omega) hgs hopens, runEngine_add, hloop.next _ _ m (by omega),
      runEngine_dataWrite hgate, wroteFrames_append]
    rfl

/-- A record that fits, from its address write on, `s` being the state its control writes start from: the address write,
the data writes, and the cursor moved on. -/
theorem runEngine_record (hloop : u.DataLoop item c n f val) {addr : Half} {a : Nat} (hbase : u = u.withFrames s)
    (hparams : s.params = u.params)
    (htodo : u.todo = .writeFrame u.params.regWramAddr addr :: item 0 :: .advance a :: r) (hval : u.recVal = val 0)
    (hfs : plainFrames fs = (u.params.regWramAddr, addr) :: firstOf (fun j => (u.params.regWram, f j)) n)
    (hopen : s.framesOpen fs) :
    runEngine (2 * lowSamples fs + (9 + c) * n + 10) u =
      { u.inLoop (s.wroteFrames fs) n (val n) r with cur := u.cur + a } := by
  obtain ⟨k, gs, rfl, hgs⟩ := plainFrames_eq_cons hfs
  obtain ⟨hgate, hopens⟩ := (framesOpen_withFrames hparams).2 hopen
  rw [← hbase] at hgate
  have hsteps : 2 * lowSamples ((k, u.params.regWramAddr, addr) :: gs) + (9 + c) * n + 10 =
      2 * k + 8 + (2 * lowSamples gs + (9 + c) * n + 2) := by
    simp only [lowSamples, List.map_cons, List.sum_cons]
    omega
  have hpop : u.todo.tail = item 0 :: .advance a :: r := congrArg List.tail htodo
  have hfirst : (u.wroteFrame k u.params.regWramAddr addr).pop =
      u.inLoop (s.wroteFrame k u.params.regWramAddr addr) 0 (val 0) (item 0 :: .advance a :: r) := by
    rw [← hval, ← hpop]
    exact congrArg (fun u => (u.wroteFrame k u.params.regWramAddr addr).pop) hbase
  rw [hsteps, runEngine_add, runEngine_writeFrame htodo hgate, hfirst, runEngine_add,
    hloop.run_first (w := s.wroteFrame k _ addr) le_rfl hgs hopens, ← runEngine_engineStep, hloop.last,
    ← runEngine_engineStep, runEngine_zero]
  exact engineStep_advance rfl

theorem srcByte_inLoop (hstable : s.sourcesStable) (k j : Nat) (x : Half) (ms : List Micro) :
    srcByte k (s.inLoop w j x ms) = (s.srcAt k, s.inLoop w j x ms) :=
  srcByte_stable _ k hstable.1

theorem srcWord_inLoop (hstable : s.sourcesStable) (k j : Nat) (x : Half) (ms : List Micro) :
    srcWord k (s.inLoop w j x ms) = (s.srcwAt k, s.inLoop w j x ms) :=
  srcWord_stable _ k hstable.2

end

/-! ### The three data loops -/

/-- `REC_VAL` before repetition `j` of a loop that leaves the value it writes there. -/
def lastValue (v : Half) (f : Nat → Half) : Nat → Half
  | 0 => v
  | j + 1 => f j

/-- The loop of an RLE record writes `REC_VAL` each time (R203). -/
theorem rleData_loop (s : State) : s.DataLoop .rleData 1 s.recCnt.toNat (fun _ => s.recVal) fun _ => s.recVal where
  next w r j hj := by
    rw [← runEngine_engineStep, runEngine_zero, engineStep_rleData rfl]
    exact if_pos hj
  last w r := by
    rw [engineStep_rleData rfl]
    exact if_neg (lt_irrefl _)

/-- The loop of a literal record writes the words after its header (R204). -/
theorem litData_loop (hstable : s.sourcesStable) :
    s.DataLoop .litData 1 s.recCnt.toNat (fun j => s.srcwAt (s.cur + 2 + j)) fun _ => s.recVal where
  next w r j hj := by
    rw [← runEngine_engineStep, runEngine_zero, engineStep_litData rfl]
    refine (if_pos hj).trans ?_
    rw [srcWord_inLoop hstable]
    rfl
  last w r := by
    rw [engineStep_litData rfl]
    exact if_neg (lt_irrefl _)

/-- The words a data record's loop writes: the payload's big-endian words (R227, R228). -/
def State.payloadWord (s : State) (j : Nat) : Half :=
  cat16 (s.srcAt (s.cur + 5 + 2 * j)) (s.srcAt (s.cur + 6 + 2 * j))

/-- The loop of a data record reads and writes those words. -/
theorem appData_loop (hstable : s.sourcesStable) :
    s.DataLoop .appData 2 (payloadWords s.recLen) s.payloadWord (lastValue s.recVal s.payloadWord) where
  next w r j hj := by
    have hhigh (v : Half) : engineStep (s.inLoop w j v (.appData j :: r)) =
        s.inLoop w j v (.appLow j (s.srcAt (s.cur + 5 + 2 * j)) :: r) := by
      rw [engineStep_appData rfl]
      refine (if_pos hj).trans ?_
      rw [srcByte_inLoop hstable]
      rfl
    rw [← runEngine_engineStep, ← runEngine_engineStep, runEngine_zero, hhigh, engineStep_appLow rfl, appLowStep,
      srcByte_inLoop hstable]
    rfl
  last w r := by
    rw [engineStep_appData rfl]
    exact if_neg (lt_irrefl _)

/-! ### Records that fit (R203, R204, R227) -/

/-- The header word of a plugin record as a number (R99). -/
theorem pluginHeader_eq_ofNat (rle : Bool) (count : BitVec 15) :
    pluginHeader rle count = BitVec.ofNat 16 (2 ^ 15 * rle.toNat + count.toNat) := by
  have hcount := count.isLt
  have hrle := rle.toNat_lt
  refine BitVec.eq_of_toNat_eq ?_
  rw [pluginHeader, BitVec.toNat_append, ← Nat.shiftLeft_add_eq_or_of_lt hcount, BitVec.toNat_ofNat,
    BitVec.toNat_ofBool, Nat.shiftLeft_eq, Nat.mod_eq_of_lt (by omega), Nat.mul_comm]

theorem pluginHeader_rle (count : BitVec 15) : pluginHeader true count = BitVec.ofNat 16 (2 ^ 15 + count.toNat) :=
  pluginHeader_eq_ofNat true count

theorem pluginHeader_lit (count : BitVec 15) : pluginHeader false count = BitVec.ofNat 16 count.toNat := by
  rw [pluginHeader_eq_ofNat, Bool.toNat_false, Nat.mul_zero, Nat.zero_add]

/-- The count of a plugin record, kept in 16 bits. -/
theorem recCount_toNat (count : BitVec 15) : (count.zeroExtend 16 : Half).toNat = count.toNat := by
  have hcount := count.isLt
  simp only [BitVec.zeroExtend, BitVec.toNat_setWidth]
  omega

/-- An RLE record that fits, after its first engine step (R203). -/
theorem runEngine_startPluginRle {addr value : Half} {count : BitVec 15} (hfits : s.cur + 3 ≤ s.len)
    (hfs : plainFrames fs = (s.params.regWramAddr, addr) :: List.replicate count.toNat (s.params.regWram, value))
    (hopen : s.framesOpen fs) :
    runEngine (2 * lowSamples fs + 10 * count.toNat + 10) (startPluginRle addr count value s) =
      { s.wroteFrames fs with
        xc := s.xc + count.toNat, cur := s.cur + 3, recAddr := addr, recHdr := pluginHeader true count
        recCnt := count.zeroExtend 16, recVal := value, todo := .pluginRecord :: s.todo } := by
  have hstart : startPluginRle addr count value s =
      State.push
        { s with recAddr := addr, recHdr := pluginHeader true count, recCnt := count.zeroExtend 16, recVal := value }
        [.writeFrame s.params.regWramAddr addr, .rleData 0, .advance 3, .pluginRecord] :=
    if_neg (by simpa [State.len] using hfits)
  have hloop := rleData_loop (startPluginRle addr count value s)
  rw [hstart, push_recCnt, recCount_toNat] at hloop
  rw [hstart, runEngine_record (s := s) hloop rfl rfl rfl rfl (by simpa [firstOf] using hfs) hopen, wroteFrames_frame]
  rfl

/-- A literal record that fits, after its first engine step (R204). -/
theorem runEngine_startPluginLit {addr : Half} {count : BitVec 15} (hfits : s.cur + (2 + count.toNat) ≤ s.len)
    (hstable : s.sourcesStable)
    (hfs : plainFrames fs = (s.params.regWramAddr, addr) ::
      firstOf (fun j => (s.params.regWram, s.srcwAt (s.cur + 2 + j))) count.toNat)
    (hopen : s.framesOpen fs) :
    runEngine (2 * lowSamples fs + 10 * count.toNat + 10) (startPluginLit addr count s) =
      { s.wroteFrames fs with
        xc := s.xc + count.toNat, cur := s.cur + (2 + count.toNat), recAddr := addr, recHdr := count.zeroExtend 16
        recCnt := count.zeroExtend 16, todo := .pluginRecord :: s.todo } := by
  have hstart : startPluginLit addr count s =
      State.push { s with recAddr := addr, recHdr := count.zeroExtend 16, recCnt := count.zeroExtend 16 }
        [.writeFrame s.params.regWramAddr addr, .litData 0, .advance (2 + count.toNat), .pluginRecord] :=
    if_neg (by simpa [State.len] using hfits)
  have hloop := litData_loop (s := startPluginLit addr count s) (by rw [hstart]; exact hstable)
  rw [hstart, push_recCnt, recCount_toNat] at hloop
  rw [hstart, runEngine_record (s := s) hloop rfl rfl rfl rfl hfs hopen, wroteFrames_frame]
  rfl

theorem startOf_dataRecordOf (ty : Fin 3) (len addr : Half) (s : State) :
    startOf (dataRecordOf ty len addr) s = appDataRecord (BitVec.ofNat 8 ty.val) len addr s := by
  match ty with
  | 0 | 1 | 2 => rfl

/-- A data record that fits, after its first engine step (R227, R231). -/
theorem runEngine_appDataRecord {ty : Byte} {len addr : Half}
    (hfits : s.cur + 5 + advBytes s.params.oddAdvance len ≤ s.len) (hstable : s.sourcesStable)
    (hfs : plainFrames fs = (s.params.regWramAddr, addr) ::
      firstOf (fun j => (s.params.regWram, s.payloadWord j)) (payloadWords len))
    (hopen : s.framesOpen fs) :
    runEngine (2 * lowSamples fs + 11 * payloadWords len + 10) (appDataRecord ty len addr s) =
      { s.wroteFrames fs with
        xc := s.xc + payloadWords len, cur := s.cur + (5 + advBytes s.params.oddAdvance len), recAddr := addr
        recType := ty, recLen := len, recVal := lastValue s.recVal s.payloadWord (payloadWords len)
        todo := .appRecord :: s.todo } := by
  have hstart : appDataRecord ty len addr s =
      State.push { s with recType := ty, recLen := len, recAddr := addr }
        [.writeFrame s.params.regWramAddr addr, .appData 0, .advance (5 + advBytes s.params.oddAdvance len),
         .appRecord] :=
    if_neg (by simpa [State.len] using hfits)
  have hloop : (appDataRecord ty len addr s).DataLoop .appData 2 (payloadWords len) s.payloadWord
      (lastValue s.recVal s.payloadWord) := by
    rw [hstart]
    exact appData_loop hstable
  rw [hstart] at hloop ⊢
  rw [runEngine_record (s := s) hloop rfl rfl rfl rfl hfs hopen, wroteFrames_frame]
  rfl

end Sys2Proof.Machine
end

section
/-! SUPPORT. The commands made of one control frame (R142, R147), the bytes of a streaming bracket (R161, R166), and the
records that end a load (R224, R226). -/

namespace Sys2Proof.Machine

variable {s t : State} {r : List Micro} {k : Nat} {i : Instr}

/-! ### One control frame -/

theorem startOf_ctrlWrite (hinit : s.initDone = true) :
    startOf .ctrlWrite s = s.push [.writeFrame s.lReg s.lA, .complete .nothing] :=
  if_pos hinit

theorem startOf_ctrlRead (hinit : s.initDone = true) :
    startOf .ctrlRead s = s.push [.readFrame s.lReg, .complete .readValue] :=
  if_pos hinit

/-! ### One byte of a streaming bracket -/

theorem startSdiWriteByte_eq (b : Byte) (s : State) :
    startSdiWriteByte b s =
      { s with misoIn := s.misoIn.drop 1, misoCount := s.misoCount + 1, xc := s.xc + 1,
               trace := s.trace ++ [.xfer b (s.misoAt 0)] } := by
  rw [startSdiWriteByte, transfer_eq, ← List.drop_one]

theorem startSdiReadByte_eq (s : State) :
    startSdiReadByte s =
      { s with misoIn := s.misoIn.drop 1, misoCount := s.misoCount + 1, trace := s.trace ++ [.xfer 0xFF (s.misoAt 0)],
               todo := .storeByte (s.misoAt 0) :: s.todo } := by
  rw [startSdiReadByte, transfer_eq, ← List.drop_one]
  rfl

/-- The byte received is stored one engine step later, as `DST[XC]`'s value of the running command. -/
theorem runEngine_startSdiReadByte (s : State) :
    runEngine 1 (startSdiReadByte s) =
      { s with misoIn := s.misoIn.drop 1, misoCount := s.misoCount + 1, xc := s.xc + 1,
               trace := s.trace ++ [.xfer 0xFF (s.misoAt 0)], dstIn := writeBuffer s.dstIn s.xc (s.misoAt 0) } := by
  rw [← runEngine_engineStep, runEngine_zero, startSdiReadByte_eq, engineStep_storeByte rfl]
  rfl

/-! ### Records that end a load -/

/-- A loader and its completion leave everything around them. -/
theorem sameAround_of_load (h : t = (s.withRecord t).withControl t) : s.sameAround t := by
  rw [h]
  exact ⟨rfl, rfl, rfl, rfl, rfl, rfl, rfl, rfl, rfl, rfl, rfl, rfl, rfl, rfl, rfl, rfl,
    ⟨fun _ => rfl, fun _ => rfl, fun _ => rfl⟩, rfl, rfl⟩

/-- The execute record after its first engine step: the activation write (R226). -/
theorem runEngine_startAppExec {len addr : Half} (hfits : s.cur + 5 ≤ s.len) (hgate : s.gateOpens k) :
    runEngine (2 * k + 8) (startAppExec len addr s) =
      { State.wroteFrame { s with recType := 3, recLen := len, recAddr := addr } k s.params.regAiaddr addr with
        todo := .complete .count :: s.todo } := by
  have hstart : startAppExec len addr s =
      State.push { s with recType := 3, recLen := len, recAddr := addr }
        [.writeFrame s.params.regAiaddr addr, .complete .count] :=
    if_neg (by simpa [State.len] using hfits)
  rw [hstart]
  exact runEngine_writeFrame rfl hgate

theorem startOf_badType {b : Byte} (hi : i ∈ badTypeRecords b) (s : State) : startOf i s = badAppType b s := by
  simp only [badTypeRecords, List.mem_cons, List.not_mem_nil, or_false] at hi
  obtain rfl | rfl | rfl | rfl | rfl | rfl := hi
  all_goals rfl

/-- An error of LOAD_APP writes the completion registers and nothing of `DST` (R275). -/
theorem raise_of_loadApp (hcmd : decodeCommand s.lCmd = .loadApp) (e : ErrCode) (pos : Nat) :
    raise e pos s = finish e pos none (some s.xc) s := by
  have hword := (decodeCommand_loadApp_iff s.lCmd).1 hcmd
  obtain ⟨hread, -⟩ | ⟨-, hraise⟩ := raise_cases s e pos
  · rw [hword] at hread
    exact absurd hread (by decide)
  · rw [hraise, hword]
    rfl

/-- A record of a type above 3 completes the load silently, or ends it with an error at the record (R224). -/
theorem badAppType_silent (hsilent : s.params.silentType = true) (b : Byte) :
    badAppType b s = State.push { s with recType := b } [.complete .count] :=
  if_pos hsilent

theorem badAppType_error (hsilent : s.params.silentType = false) (hcmd : decodeCommand s.lCmd = .loadApp) (b : Byte) :
    badAppType b s = finish .invalidFormat s.cur none (some s.xc) { s with recType := b } :=
  (if_neg (by simp [hsilent])).trans (raise_of_loadApp (s := { s with recType := b }) hcmd _ _)

end Sys2Proof.Machine
end

section
/-! SUPPORT. Images of whole records (R201, R221): what one record's load makes of the state, the records one after the
other, and the end of the load. -/

namespace Sys2Proof.Machine

variable {s t u : State} {r : List Micro} {fs gs : List GatedFrame} {i : Instr} {a b m n : Nat}

/-! ### What a list begins with -/

section
variable {α : Type} {f : Nat → α} {xs ys : List α}

theorem firstOf_add (f : Nat → α) (m n : Nat) : firstOf f (m + n) = firstOf f m ++ firstOf (fun k => f (m + k)) n := by
  simp [firstOf, List.range_add, Function.comp_def]

theorem firstOf_cons (f : Nat → α) (n : Nat) : firstOf f (n + 1) = f 0 :: firstOf (fun k => f (k + 1)) n := by
  simp [firstOf, List.range_succ_eq_map, Function.comp_def]

theorem map_firstOf {β : Type} (g : α → β) (f : Nat → α) (n : Nat) :
    (firstOf f n).map g = firstOf (fun k => g (f k)) n := by
  simp [firstOf, Function.comp_def]

/-- The elements `f 0, f 1, ...` begin with `xs`. -/
def BeginsWith (f : Nat → α) (xs : List α) : Prop := firstOf f xs.length = xs

theorem beginsWith_of_getD {d : α} (h : ∀ j, j < xs.length → f j = xs.getD j d) : BeginsWith f xs := by
  refine List.ext_getElem (length_firstOf f _) fun j _ hj => ?_
  simp [firstOf, h j hj, hj]

theorem beginsWith_append : BeginsWith f (xs ++ ys) ↔ BeginsWith f xs ∧ BeginsWith (fun k => f (xs.length + k)) ys := by
  rw [BeginsWith, List.length_append, firstOf_add]
  exact ⟨fun h => List.append_inj h (length_firstOf _ _), fun ⟨hx, hy⟩ => congrArg₂ (· ++ ·) hx hy⟩

/-- More elements begin with the same. -/
theorem BeginsWith.firstOf_of_le (h : BeginsWith f xs) (hn : xs.length ≤ n) : ∃ rest, firstOf f n = xs ++ rest := by
  obtain ⟨d, rfl⟩ := Nat.exists_eq_add_of_le hn
  exact ⟨_, (firstOf_add f _ d).trans (congrArg (· ++ _) h)⟩

end

/-- The words of a payload, by its bytes (R228). -/
theorem payloadWordsOf_firstOf (f : Nat → Byte) (n : Nat) :
    payloadWordsOf (firstOf f n) = firstOf (fun j => cat16 (f (2 * j)) (f (2 * j + 1))) (n / 2) := by
  induction n using Nat.twoStepInduction generalizing f with
  | zero | one => rfl
  | more n ih _ =>
    have hhalf : (n + 2) / 2 = n / 2 + 1 := by omega
    rw [firstOf_cons, firstOf_cons, payloadWordsOf, ih, hhalf, firstOf_cons]
    rfl

/-! ### A record's load -/

/-- `t` comes after `s` with exactly the control writes `fs`, and what a loader computes between them. -/
def State.Wrote (s : State) (fs : List GatedFrame) (t : State) : Prop :=
  t = (s.withRecord t).withFrames (s.wroteFrames fs)

theorem State.Wrote.of_record (h : t = s.withRecord t) : s.Wrote [] t := h

theorem State.Wrote.trans (hst : s.Wrote fs t) (htu : t.Wrote gs u) : s.Wrote (fs ++ gs) u := by
  have hframes : t.wroteFrames gs = (s.withRecord t).withFrames (s.wroteFrames (fs ++ gs)) := by
    rw [wroteFrames_append, ← wroteFrames_withFrames]
    exact congrArg (·.wroteFrames gs) hst
  have hrecord : t.withRecord u = ((s.withRecord t).withFrames (s.wroteFrames fs)).withRecord u :=
    congrArg (·.withRecord u) hst
  calc
    u = (t.withRecord u).withFrames (t.wroteFrames gs) := htu
    _ = (s.withRecord u).withFrames (s.wroteFrames (fs ++ gs)) := by
      rw [hframes, hrecord]
      rfl

/-- What a record's control writes and a loader leave: the parameters, the length, the sources. -/
theorem State.Wrote.params (h : s.Wrote fs t) : t.params = s.params := (congrArg State.params h :)
theorem State.Wrote.len (h : s.Wrote fs t) : t.len = s.len := (congrArg State.len h :)
theorem State.Wrote.srcAt (h : s.Wrote fs t) : t.srcAt = s.srcAt := (congrArg State.srcAt h :)
theorem State.Wrote.srcwAt (h : s.Wrote fs t) : t.srcwAt = s.srcwAt := (congrArg State.srcwAt h :)

theorem State.Wrote.sourcesStable (h : s.Wrote fs t) (hstable : s.sourcesStable) : t.sourcesStable :=
  ⟨(congrArg State.srcOld h).trans hstable.1, (congrArg State.srcwOld h).trans hstable.2⟩

/-- The control writes that follow. -/
theorem State.Wrote.framesOpen (h : s.Wrote fs t) (hopen : s.framesOpen (fs ++ gs)) : t.framesOpen gs := by
  have hafter := (framesOpen_append.1 hopen).2
  rw [h]
  have hparams : (s.wroteFrames fs).params = s.params := (congrArg State.params (wroteFrames_frame s fs) :)
  exact (framesOpen_withFrames (s := s.withRecord t) hparams).2 hafter

theorem framesOpen_of_record (h : t = s.withRecord t) (hopen : s.framesOpen fs) : t.framesOpen fs :=
  State.Wrote.framesOpen (fs := []) (.of_record h) hopen

/-- The engine carries out records of `units` elements at the cursor, whose control writes are `fs`, `writes` of them to
the RAM-data register, and stands before the next record. -/
structure State.Loads (s : State) (fs : List GatedFrame) (units writes : Nat) (t : State) : Prop where
  reach : ∃ n, runEngine n s = t
  wrote : s.Wrote fs t
  todo : t.todo = s.todo
  cur : t.cur = s.cur + units
  xc : t.xc = s.xc + writes

theorem State.Loads.refl (s : State) : s.Loads [] 0 0 s := ⟨⟨0, rfl⟩, .of_record rfl, rfl, rfl, rfl⟩

theorem runEngine_trans (hst : ∃ n, runEngine n s = t) (htu : ∃ n, runEngine n t = u) : ∃ n, runEngine n s = u := by
  obtain ⟨m, rfl⟩ := hst
  obtain ⟨n, rfl⟩ := htu
  exact ⟨m + n, runEngine_add m n s⟩

theorem State.Loads.trans {a' b' : Nat} (hst : s.Loads fs a b t) (htu : t.Loads gs a' b' u) :
    s.Loads (fs ++ gs) (a + a') (b + b') u where
  reach := runEngine_trans hst.reach htu.reach
  wrote := hst.wrote.trans htu.wrote
  todo := htu.todo.trans hst.todo
  cur := by rw [htu.cur, hst.cur, Nat.add_assoc]
  xc := by rw [htu.xc, hst.xc, Nat.add_assoc]

/-- The words at the cursor, once it has moved on. -/
theorem State.Loads.wordFrom (h : s.Loads fs a b t) (k : Nat) : t.wordFrom k = s.wordFrom (a + k) := by
  rw [State.wordFrom, State.wordFrom, h.wrote.srcwAt, h.cur, Nat.add_assoc]

/-- The bytes at the cursor, once it has moved on. -/
theorem State.Loads.byteFrom (h : s.Loads fs a b t) (k : Nat) : t.byteFrom k = s.byteFrom (a + k) := by
  rw [State.byteFrom, State.byteFrom, h.wrote.srcAt, h.cur, Nat.add_assoc]

/-- A record that the engine meets, `t` being what its first engine step leads to. -/
theorem loads_of_meets (hmeets : ∃ n, runEngine n s = startOf i (s.withTodo r))
    (hrun : runEngine n (startOf i (s.withTodo r)) = t) (hwrote : (s.withTodo r).Wrote fs t) (htodo : t.todo = s.todo)
    (hcur : t.cur = s.cur + a) (hxc : t.xc = s.xc + b) : s.Loads fs a b t where
  reach := runEngine_trans hmeets ⟨n, hrun⟩
  wrote := State.Wrote.trans (fs := []) (.of_record rfl) hwrote
  todo := htodo
  cur := hcur
  xc := hxc

/-- Control writes, and what a loader computes after them. -/
theorem wrote_of_frames (h : t = (s.wroteFrames fs).withRecord t) : s.Wrote fs t := by
  rw [wroteFrames_frame] at h
  exact h

/-- Where the loops' heads lead: to the first engine step of the record at the cursor. -/
theorem meets_plugin (htodo : s.todo = .pluginRecord :: r) (hstable : s.sourcesStable)
    (hdecode : decodePlugin (firstOf s.wordFrom (min 3 (s.len - s.cur))) = .ok i) :
    ∃ n, runEngine n s = startOf i (s.withTodo r) := by
  obtain ⟨hlen, n, hn, hwhole, hpart⟩ := plugin_fixed_words hdecode
  have hmeet : meet (s.withTodo (.pluginWords (firstOf s.wordFrom n) :: r)) = .instr i :=
    meet_pluginWords rfl hwhole hn
  refine ⟨n + 1 + 1, ?_⟩
  rw [runEngine_add, runEngine_to_plugin htodo hstable hlen hpart, ← runEngine_engineStep, runEngine_zero]
  exact engineStep_of_meet_instr hmeet

theorem meets_app (htodo : s.todo = .appRecord :: r) (hstable : s.sourcesStable) (hlen : s.cur < s.len)
    (hdecode : decodeApp (firstOf s.byteFrom (min 5 (s.len - s.cur))) = .ok i) :
    ∃ n, runEngine n s = startOf i (s.withTodo r) := by
  obtain ⟨n, hn, hwhole, hpart⟩ := app_header_bytes hlen hdecode
  have hmeet : meet (s.withTodo (.appBytes (firstOf s.byteFrom n) :: r)) = .instr i := meet_appBytes rfl hwhole hn
  refine ⟨n + 1 + 1, ?_⟩
  rw [runEngine_add, runEngine_to_app htodo hstable hlen hpart, ← runEngine_engineStep, runEngine_zero]
  exact engineStep_of_meet_instr hmeet

/-- An RLE record in an image. -/
theorem loads_rle {addr value : Half} {count : BitVec 15} (htodo : s.todo = .pluginRecord :: r)
    (hstable : s.sourcesStable) (hwords : BeginsWith s.wordFrom [addr, pluginHeader true count, value])
    (hlen : s.cur + 3 ≤ s.len)
    (hfs : plainFrames fs = (s.params.regWramAddr, addr) :: List.replicate count.toNat (s.params.regWram, value))
    (hopen : s.framesOpen fs) : ∃ t, s.Loads fs 3 count.toNat t := by
  obtain ⟨rest, hread⟩ := hwords.firstOf_of_le (n := min 3 (s.len - s.cur)) (by simp; omega)
  have hdecode : decodePlugin (firstOf s.wordFrom (min 3 (s.len - s.cur))) = .ok (.pluginRle addr count value) := by
    rw [hread]
    exact (decodePlugin_rle (pluginHeader_form _ _) _ _).trans (by rw [pluginHeader_count])
  exact ⟨_, loads_of_meets (meets_plugin htodo hstable hdecode)
    (runEngine_startPluginRle (s := s.withTodo r) hlen hfs (framesOpen_of_record rfl hopen)) (wrote_of_frames rfl)
    htodo.symm rfl rfl⟩

/-- A literal record in an image. -/
theorem loads_lit {addr : Half} {count : BitVec 15} {ws : List Half} (hcount : count.toNat = ws.length)
    (htodo : s.todo = .pluginRecord :: r) (hstable : s.sourcesStable)
    (hwords : BeginsWith s.wordFrom ([addr, pluginHeader false count] ++ ws)) (hlen : s.cur + (2 + ws.length) ≤ s.len)
    (hfs : plainFrames fs = (s.params.regWramAddr, addr) :: ws.map fun w => (s.params.regWram, w))
    (hopen : s.framesOpen fs) : ∃ t, s.Loads fs (2 + ws.length) ws.length t := by
  obtain ⟨hhead, hpayload⟩ := beginsWith_append.1 hwords
  obtain ⟨rest, hread⟩ := hhead.firstOf_of_le (n := min 3 (s.len - s.cur)) (by simp; omega)
  have hdecode : decodePlugin (firstOf s.wordFrom (min 3 (s.len - s.cur))) = .ok (.pluginLit addr count) := by
    rw [hread]
    exact (decodePlugin_lit (pluginHeader_form _ _) _).trans (by rw [pluginHeader_count])
  have hwrites : (ws.map fun w => (s.params.regWram, w)) =
      firstOf (fun j => (s.params.regWram, s.srcwAt (s.cur + 2 + j))) count.toNat := by
    rw [hcount, ← congrArg (List.map _) hpayload, map_firstOf]
    simp only [State.wordFrom, List.length_cons, List.length_nil, Nat.zero_add, Nat.add_assoc, Nat.reduceAdd]
  rw [hwrites] at hfs
  rw [← hcount] at hlen ⊢
  exact ⟨_, loads_of_meets (meets_plugin htodo hstable hdecode)
    (runEngine_startPluginLit (s := s.withTodo r) hlen hstable hfs (framesOpen_of_record rfl hopen))
    (wrote_of_frames rfl) htodo.symm rfl rfl⟩

/-- The words of a record, by its header word (R99, R100). -/
theorem words_lit (addr : Half) {ws : List Half} (hfits : ws.length < 2 ^ 15) :
    (PluginRecord.lit addr ws).words = [addr, pluginHeader false (BitVec.ofNat 15 ws.length)] ++ ws := by
  rw [pluginHeader_lit, BitVec.toNat_ofNat, Nat.mod_eq_of_lt hfits]
  rfl

theorem words_rle (addr value : Half) (count : BitVec 15) :
    (PluginRecord.rle addr count value).words = [addr, pluginHeader true count, value] := by
  rw [pluginHeader_rle]
  rfl

/-- A plugin record in an image (R203, R204). -/
theorem loads_pluginRecord (x : PluginRecord) (hfits : x.fits) (htodo : s.todo = .pluginRecord :: r)
    (hstable : s.sourcesStable) (hwords : BeginsWith s.wordFrom x.words) (hlen : s.cur + x.words.length ≤ s.len)
    (hfs : plainFrames fs = x.frames s.params) (hopen : s.framesOpen fs) :
    ∃ t, s.Loads fs x.words.length x.dataCount t := by
  cases x with
  | lit addr ws =>
    have hcount : (BitVec.ofNat 15 ws.length).toNat = ws.length := Nat.mod_eq_of_lt hfits
    have hlength : (PluginRecord.lit addr ws).words.length = 2 + ws.length := Nat.add_comm ws.length 2
    rw [words_lit addr hfits] at hwords
    rw [hlength] at hlen ⊢
    exact loads_lit hcount htodo hstable hwords hlen hfs hopen
  | rle addr count value =>
    rw [words_rle] at hwords
    exact loads_rle htodo hstable hwords hlen hfs hopen

theorem decodeApp_dataRecord (ty : Fin 3) (len addr : Half) (rest : List Byte) :
    decodeApp (appHeader (BitVec.ofNat 8 ty.val) len addr ++ rest) = .ok (dataRecordOf ty len addr) := by
  match ty with
  | 0 | 1 | 2 => simp [decodeApp, appHeader, dataRecordOf]

/-- The payload's words are the ones a data record's loop writes. -/
theorem payloadWordsOf_payload {payload : List Byte} (h : BeginsWith (fun k => s.byteFrom (5 + k)) payload) :
    payloadWordsOf payload = firstOf s.payloadWord (payload.length / 2) := by
  rw [← congrArg payloadWordsOf h, payloadWordsOf_firstOf]
  refine congrArg (firstOf · _) (funext fun j => ?_)
  have hlow : s.cur + (5 + (2 * j + 1)) = s.cur + 6 + 2 * j := by omega
  simp only [State.byteFrom, State.payloadWord, hlow, Nat.add_assoc]

/-- The payload bytes a record occupies, where the cursor keeps even steps only over even payloads (R105). -/
theorem advBytes_eq {o : OddAdvance} {len : Half} (h : o = .full ∨ len.toNat % 2 = 0) : advBytes o len = len.toNat := by
  cases o with
  | full => rfl
  | even =>
    obtain h | h := h
    · cases h
    · exact Nat.mul_div_cancel' (Nat.dvd_of_mod_eq_zero h)

/-- A data record in an image (R227, R228). -/
theorem loads_appRecord (x : AppRecord) (hfits : x.payload.length < 2 ^ 16)
    (hadvance : s.params.oddAdvance = .full ∨ x.payload.length % 2 = 0) (htodo : s.todo = .appRecord :: r)
    (hstable : s.sourcesStable) (hbytes : BeginsWith s.byteFrom x.bytes) (hlen : s.cur + x.bytes.length ≤ s.len)
    (hfs : plainFrames fs = x.frames s.params) (hopen : s.framesOpen fs) :
    ∃ t, s.Loads fs x.bytes.length (x.payload.length / 2) t := by
  obtain ⟨ty, addr, payload⟩ := x
  have hlength : (AppRecord.bytes ⟨ty, addr, payload⟩).length = 5 + payload.length := Nat.add_comm payload.length 5
  have hcount : (BitVec.ofNat 16 payload.length).toNat = payload.length := Nat.mod_eq_of_lt hfits
  obtain ⟨hheader, hpayload⟩ := beginsWith_append.1 hbytes
  rw [hlength] at hlen ⊢
  rw [← hcount] at hadvance
  have hadv := (advBytes_eq hadvance).trans hcount
  obtain ⟨rest, hread⟩ := hheader.firstOf_of_le (n := min 5 (s.len - s.cur)) (by simp; omega)
  have hdecode : decodeApp (firstOf s.byteFrom (min 5 (s.len - s.cur))) =
      .ok (dataRecordOf ty (BitVec.ofNat 16 payload.length) addr) := by
    rw [hread]
    exact decodeApp_dataRecord ty _ addr rest
  have hwrites : ((payloadWordsOf payload).map fun w => (s.params.regWram, w)) =
      firstOf (fun j => (s.params.regWram, s.payloadWord j)) (payloadWords (BitVec.ofNat 16 payload.length)) := by
    rw [payloadWords, hcount, payloadWordsOf_payload hpayload, map_firstOf]
  rw [AppRecord.frames, hwrites] at hfs
  have hinside : s.cur + 5 + advBytes s.params.oddAdvance (BitVec.ofNat 16 payload.length) ≤ s.len := by omega
  have hrun := runEngine_appDataRecord (s := s.withTodo r) (ty := BitVec.ofNat 8 ty.val) hinside hstable hfs
    (framesOpen_of_record rfl hopen)
  rw [← startOf_dataRecordOf] at hrun
  exact ⟨_, loads_of_meets (meets_app htodo hstable (by omega) hdecode) hrun (wrote_of_frames rfl) htodo.symm
    (congrArg (fun n => s.cur + (5 + n)) hadv) (congrArg (fun n => s.xc + n / 2) hcount)⟩

/-! ### One record after the other -/

/-- A list of records, from what each of them alone makes the engine do: `read` is what the loader reads from the cursor
on, `body`, `frames` and `writes` say what a record holds and does, `p` and `todo` are the parameters and the pseudocode
its loop's head stands at. -/
theorem loads_records {α ρ : Type} {read : State → Nat → α} {body : ρ → List α} {frames : ρ → List (Byte × Half)}
    {writes : ρ → Nat} {p : Params} {todo : List Micro}
    (hmoves : ∀ {s t : State} {fs : List GatedFrame} {a b : Nat}, s.Loads fs a b t → ∀ k, read t k = read s (a + k))
    {xs : List ρ}
    (hone : ∀ x ∈ xs, ∀ {s : State} {fs : List GatedFrame}, s.params = p → s.todo = todo → s.sourcesStable →
      BeginsWith (read s) (body x) → s.cur + (body x).length ≤ s.len → plainFrames fs = frames x → s.framesOpen fs →
      ∃ t, s.Loads fs (body x).length (writes x) t)
    (hparams : s.params = p) (htodo : s.todo = todo) (hstable : s.sourcesStable)
    (hread : BeginsWith (read s) (xs.flatMap body)) (hlen : s.cur + (xs.flatMap body).length ≤ s.len)
    (hfs : plainFrames fs = xs.flatMap frames) (hopen : s.framesOpen fs) :
    ∃ t, s.Loads fs (xs.flatMap body).length (xs.map writes).sum t := by
  induction xs generalizing s fs with
  | nil =>
    obtain rfl : fs = [] := List.map_eq_nil_iff.1 hfs
    exact ⟨s, .refl s⟩
  | cons x xs ih =>
    rw [List.flatMap_cons] at hread hlen hfs ⊢
    rw [List.length_append] at hlen ⊢
    rw [List.map_cons, List.sum_cons]
    obtain ⟨hfirst, hrest⟩ := beginsWith_append.1 hread
    obtain ⟨fs₁, fs₂, rfl, hfs₁, hfs₂⟩ := plainFrames_eq_append hfs
    obtain ⟨t, ht⟩ := hone x List.mem_cons_self hparams htodo hstable hfirst (by omega) hfs₁
      (framesOpen_append.1 hopen).1
    have hrest' : BeginsWith (read t) (xs.flatMap body) := by
      rw [funext (hmoves ht)]
      exact hrest
    have hlen' : t.cur + (xs.flatMap body).length ≤ t.len := by
      rw [ht.cur, ht.wrote.len]
      omega
    obtain ⟨u, hu⟩ := ih (fun y hy => hone y (List.mem_cons_of_mem x hy)) (ht.wrote.params.trans hparams)
      (ht.todo.trans htodo) (ht.wrote.sourcesStable hstable) hrest' hlen' hfs₂ (ht.wrote.framesOpen hopen)
    exact ⟨u, ht.trans hu⟩

/-! ### The end of a load -/

/-- From `s`, the engine makes exactly the control writes `fs`, counts `writes` more data writes and completes. -/
def State.LoadEnds (s : State) (fs : List GatedFrame) (writes : Nat) : Prop :=
  ∃ t, s.Wrote fs t ∧ t.xc = s.xc + writes ∧ ∃ n, runEngine n s = complete .count t

/-- Records, and what ends the load after them. -/
theorem State.Loads.then_ends (h : s.Loads fs a b t) (hend : t.LoadEnds gs n) : s.LoadEnds (fs ++ gs) (b + n) := by
  obtain ⟨u, hwrote, hxc, hrun⟩ := hend
  exact ⟨u, h.wrote.trans hwrote, by rw [hxc, h.xc, Nat.add_assoc], runEngine_trans h.reach hrun⟩

/-- A load completes in every turn that is long enough, `u` being the state its first engine step leads to: it has made
its control writes and no other change around them (R26, R42). -/
theorem load_completes (hstart : startOf i s = u) (hbase : u = s.withRecord u) (hxc : u.xc = 0)
    (hends : u.LoadEnds fs b) :
    ∃ n, ∀ g, n ≤ g → ∃ z, exec i { s with grant := g } = .next z ∧
      z.trace = (s.wroteFrames fs).trace ∧ z.err = .ok ∧ z.errPos = 0 ∧ z.xcount = countRegister b ∧
      z.result = s.result ∧
      (∃ d, z.completions = s.completions ++
          [{ cmd := s.lCmd, err := .ok, result := s.result, xcount := z.xcount, errPos := 0, dst := d }] ∧
        (s.lCmd ≠ 0x05 → d = [])) ∧
      z.busy = false ∧ s.sameAround z ∧
      z.csCmd = (s.wroteFrames fs).csCmd ∧ z.lastRdy = (s.wroteFrames fs).lastRdy := by
  obtain ⟨t, hwrote, hcount, hrun⟩ := hends
  obtain ⟨n, hn⟩ := exec_eventually (hstart ▸ hrun)
  refine ⟨n, fun g hg => ⟨_, hn g hg, ?_⟩⟩
  have ht : t = (s.withRecord t).withFrames (s.wroteFrames fs) := State.Wrote.trans (.of_record hbase) hwrote
  rw [hxc, Nat.zero_add] at hcount
  rw [← hcount, ht]
  obtain ⟨d, hentry, -, hnone⟩ :=
    finish_entry ((s.withRecord t).withFrames (s.wroteFrames fs)) .ok 0 none (some t.xc)
  have hsame : s.sameAround (complete .count ((s.withRecord t).withFrames (s.wroteFrames fs))) := sameAround_of_load rfl
  exact ⟨rfl, rfl, rfl, rfl, rfl, ⟨d, hentry, hnone⟩, rfl, hsame, rfl, rfl⟩

/-- An item that is left behind where the image ends, and the completion after it. -/
theorem loadEnds_of_pop {m : Micro} (htodo : s.todo = m :: .complete .count :: r) (hstep : engineStep s = s.pop) :
    s.LoadEnds [] 0 := by
  have hpop : s.pop.todo = .complete .count :: r := congrArg List.tail htodo
  refine ⟨s, .of_record rfl, rfl, 2, ?_⟩
  rw [← runEngine_engineStep, ← runEngine_engineStep, runEngine_zero, hstep, engineStep_complete hpop]
  rfl

/-- The execute record ends a load with the activation write (R226, R229). -/
theorem loadEnds_of_execute {k : Nat} {len addr : Half} (htodo : s.todo = .appRecord :: .complete .count :: r)
    (hstable : s.sourcesStable) (hbytes : BeginsWith s.byteFrom (appHeader 3 len addr)) (hlen : s.cur + 5 ≤ s.len)
    (hgate : s.gateOpens k) : s.LoadEnds [(k, s.params.regAiaddr, addr)] 0 := by
  obtain ⟨rest, hread⟩ := hbytes.firstOf_of_le (n := min 5 (s.len - s.cur)) (by simp [appHeader]; omega)
  have hdecode : decodeApp (firstOf s.byteFrom (min 5 (s.len - s.cur))) = .ok (.appExec len addr) := by
    rw [hread]
    simp [decodeApp, appHeader]
  have hmeets := meets_app htodo hstable (by omega) hdecode
  have hrun := runEngine_startAppExec (s := s.withTodo (.complete .count :: r)) (len := len) (addr := addr) hlen hgate
  have hends := runEngine_completes hrun rfl (Nat.lt_succ_self _)
  refine ⟨_, ?_, ?_, runEngine_trans hmeets ⟨_, hends⟩⟩
  · exact wrote_of_frames rfl
  · rfl

/-! ### Plugin images (R201, R207) -/

/-- LOAD_PLUGIN after its checks. -/
theorem startOf_loadPlugin (hinit : s.initDone = true) (hcap : s.len ≤ s.params.srcwCap) :
    startOf .loadPlugin s = { s with xc := 0, cur := 0, todo := .pluginRecord :: .complete .count :: s.todo } :=
  (if_pos hinit).trans (if_neg (Nat.not_lt.2 hcap))

/-- Whole records that fill the image. -/
theorem loadEnds_pluginImage {rs : List PluginRecord} (hfits : ∀ x ∈ rs, x.fits)
    (htodo : s.todo = .pluginRecord :: .complete .count :: r) (hstable : s.sourcesStable)
    (hwords : BeginsWith s.wordFrom (rs.flatMap PluginRecord.words))
    (hlen : s.cur + (rs.flatMap PluginRecord.words).length = s.len)
    (hfs : plainFrames fs = rs.flatMap (PluginRecord.frames s.params)) (hopen : s.framesOpen fs) :
    s.LoadEnds fs (rs.map PluginRecord.dataCount).sum := by
  obtain ⟨t, ht⟩ := loads_records (read := State.wordFrom) (writes := PluginRecord.dataCount) (fun h => h.wordFrom)
    (fun x hx _ _ hp hm hst hw hl hf ho => loads_pluginRecord x (hfits x hx) hm hst hw hl (hp ▸ hf) ho)
    rfl htodo hstable hwords hlen.le hfs hopen
  have hhead := ht.todo.trans htodo
  have hend : t.len ≤ t.cur := by rw [ht.wrote.len, ht.cur, hlen]
  have hpop : engineStep t = t.pop := (engineStep_pluginRecord hhead).trans (if_pos hend)
  simpa using ht.then_ends (loadEnds_of_pop hhead hpop)

/-! ### Application images (R221, R222, R229) -/

/-- LOAD_APP after its checks. -/
theorem startOf_loadApp (hinit : s.initDone = true) (hcap : s.len ≤ s.params.srcCap) (hlen : 3 ≤ s.len) :
    startOf .loadApp s =
      { s with xc := 0, todo := .magicBytes [] :: .appRecord :: .complete .count :: s.todo } :=
  (if_pos hinit).trans ((if_neg (Nat.not_lt.2 hcap)).trans (if_neg (Nat.not_lt.2 hlen)))

/-- The next byte of the marker is read where no write raced. -/
theorem engineStep_reads_marker {bs : List Byte} (hshort : bs.length < 3) (hstable : s.sourcesStable) :
    engineStep (s.withTodo (.magicBytes bs :: r)) = s.withTodo (.magicBytes (bs ++ [s.srcAt bs.length]) :: r) := by
  obtain ⟨-, hstep⟩ | ⟨hlong, -⟩ := engineStep_magicBytes (s := s.withTodo (.magicBytes bs :: r)) rfl
  · have hold : (s.withTodo (.magicBytes bs :: r)).srcOld = [] := hstable.1
    rw [hstep, magicStep, srcByte_stable _ _ hold]
    rfl
  · exact absurd hshort (Nat.not_lt.2 hlong)

/-- The marker moves the cursor to 3 (R222). -/
theorem runEngine_marker (htodo : s.todo = .magicBytes [] :: r) (hstable : s.sourcesStable)
    (hmarker : BeginsWith s.srcAt [0x50, 0x26, 0x48]) : runEngine 4 s = { s with cur := 3, todo := r } := by
  have hbegin : s = s.withTodo (.magicBytes [] :: r) := by
    rw [← htodo]
    rfl
  have hread : runEngine 3 (s.withTodo (.magicBytes [] :: r)) = s.withTodo (.magicBytes [0x50, 0x26, 0x48] :: r) := by
    rw [runEngine_reads s.srcAt .magicBytes 3 fun k hk => ?_]
    · exact congrArg (fun bs => s.withTodo (.magicBytes bs :: r)) hmarker
    · rw [engineStep_reads_marker (by simpa using hk) hstable, length_firstOf]
  have hmeet : meet (s.withTodo (.magicBytes [0x50, 0x26, 0x48] :: r)) = .instr .appMagic := rfl
  have hsteps : 4 = 3 + 1 := rfl
  rw [hsteps, runEngine_add, congrArg (runEngine 3) hbegin, hread, ← runEngine_engineStep, runEngine_zero,
    engineStep_of_meet_instr hmeet]
  rfl

/-- The bytes of an image's execute record, where it has one. -/
def executeBytes : Option (Half × Half) → List Byte
  | some (len, addr) => appHeader 3 len addr
  | none => []

theorem appImage_eq (rs : List AppRecord) (entry : Option (Half × Half)) :
    appImage rs entry = [0x50, 0x26, 0x48] ++ (rs.flatMap AppRecord.bytes ++ executeBytes entry) := by
  cases entry <;> simp [appImage, executeBytes, appHeader]

/-- The end of an image: nothing more, or an execute record and anything after it. -/
theorem loadEnds_execute (entry : Option (Half × Half)) {extra : Nat}
    (htodo : s.todo = .appRecord :: .complete .count :: r) (hstable : s.sourcesStable)
    (hbytes : BeginsWith s.byteFrom (executeBytes entry)) (hlen : s.len = s.cur + (executeBytes entry).length + extra)
    (hextra : entry = none → extra = 0) (hfs : plainFrames fs = activation s.params entry) (hopen : s.framesOpen fs) :
    s.LoadEnds fs 0 := by
  cases entry with
  | none =>
    obtain rfl : fs = [] := List.map_eq_nil_iff.1 hfs
    have hend : s.len ≤ s.cur := by rw [hlen, hextra rfl]; rfl
    exact loadEnds_of_pop htodo ((engineStep_appRecord htodo).trans (if_pos hend))
  | some e =>
    obtain ⟨len, addr⟩ := e
    obtain ⟨k, fs', rfl, hnil⟩ := plainFrames_eq_cons hfs
    obtain rfl : fs' = [] := List.map_eq_nil_iff.1 hnil
    have hinside : s.cur + 5 ≤ s.len := by rw [hlen]; exact Nat.le_add_right _ _
    exact loadEnds_of_execute htodo hstable hbytes hinside hopen.1

/-- Data records and the end of an image, from the first record on. -/
theorem loadEnds_appRecords {rs : List AppRecord} {entry : Option (Half × Half)} {extra : Nat}
    (hfits : ∀ x ∈ rs, x.payload.length < 2 ^ 16)
    (hadvance : s.params.oddAdvance = .full ∨ ∀ x ∈ rs, x.payload.length % 2 = 0)
    (htodo : s.todo = .appRecord :: .complete .count :: r) (hstable : s.sourcesStable)
    (hbytes : BeginsWith s.byteFrom (rs.flatMap AppRecord.bytes ++ executeBytes entry))
    (hlen : s.len = s.cur + (rs.flatMap AppRecord.bytes ++ executeBytes entry).length + extra)
    (hextra : entry = none → extra = 0)
    (hfs : plainFrames fs = rs.flatMap (AppRecord.frames s.params) ++ activation s.params entry)
    (hopen : s.framesOpen fs) : s.LoadEnds fs (rs.map fun x => x.payload.length / 2).sum := by
  rw [List.length_append] at hlen
  obtain ⟨hrecords, hexecute⟩ := beginsWith_append.1 hbytes
  obtain ⟨fs₁, fs₂, rfl, hfs₁, hfs₂⟩ := plainFrames_eq_append hfs
  obtain ⟨t, ht⟩ := loads_records (read := State.byteFrom) (writes := fun x : AppRecord => x.payload.length / 2)
    (fun h => h.byteFrom)
    (fun x hx _ _ hp hm hst hb hl hf ho => loads_appRecord x (hfits x hx) (hadvance.imp (hp ▸ ·) (· x hx)) hm hst hb hl
      (hp ▸ hf) ho)
    rfl htodo hstable hrecords (by omega) hfs₁ (framesOpen_append.1 hopen).1
  rw [← funext ht.byteFrom] at hexecute
  rw [← ht.wrote.params] at hfs₂
  have hlen' : t.len = t.cur + (executeBytes entry).length + extra := by
    rw [ht.wrote.len, ht.cur]
    omega
  exact ht.then_ends (loadEnds_execute entry (ht.todo.trans htodo) (ht.wrote.sourcesStable hstable) hexecute hlen'
    hextra hfs₂ (ht.wrote.framesOpen hopen))

/-- An application image: the marker, data records, and what ends it. -/
theorem loadEnds_appImage {rs : List AppRecord} {entry : Option (Half × Half)} {extra : Nat}
    (hfits : ∀ x ∈ rs, x.payload.length < 2 ^ 16)
    (hadvance : s.params.oddAdvance = .full ∨ ∀ x ∈ rs, x.payload.length % 2 = 0)
    (htodo : s.todo = .magicBytes [] :: .appRecord :: .complete .count :: r) (hstable : s.sourcesStable)
    (hbytes : BeginsWith s.srcAt (appImage rs entry)) (hlen : s.len = (appImage rs entry).length + extra)
    (hextra : entry = none → extra = 0)
    (hfs : plainFrames fs = rs.flatMap (AppRecord.frames s.params) ++ activation s.params entry)
    (hopen : s.framesOpen fs) : s.LoadEnds fs (rs.map fun x => x.payload.length / 2).sum := by
  rw [appImage_eq] at hbytes hlen
  rw [List.length_append] at hlen
  obtain ⟨hmarker, hrest⟩ := beginsWith_append.1 hbytes
  obtain ⟨t, hwrote, hxc, hrun⟩ :=
    loadEnds_appRecords (s := { s with cur := 3, todo := .appRecord :: .complete .count :: r }) hfits hadvance rfl
      hstable hrest hlen hextra hfs (framesOpen_of_record rfl hopen)
  exact ⟨t, State.Wrote.trans (fs := []) (.of_record rfl) hwrote, hxc,
    runEngine_trans ⟨4, runEngine_marker htodo hstable hmarker⟩ hrun⟩

end Sys2Proof.Machine
end

section
/-! The statements of spec/30_encoding.md. -/

namespace Sys2Proof.Machine

/-- Settles O1, one case for each row of the encoding tables. -/
theorem decodeEncodeRoundTrip : Obligations.DecodeEncodeRoundTrip := fun _ => decode_encode

/-- Settles O2, format by format. -/
theorem decodedObjectsReencode : Obligations.DecodedObjectsReencode :=
  ⟨fun w => ⟨decodeCommand_wellFormed w, encode_decodeCommand w⟩, fun _ _ => encode_of_decodeWire,
    fun _ _ => encode_of_decodePlugin, fun _ _ => encode_of_decodeMagic, fun _ _ => encode_of_decodeApp⟩

/-- Settles O3, by the tables' words. -/
theorem wordsDecodeAsTabled : Obligations.WordsDecodeAsTabled :=
  ⟨rfl, rfl, rfl, rfl, rfl, rfl, rfl, rfl⟩

/-- Settles O35, the frame by its gate and its bracket. -/
theorem controlWriteFrame : Obligations.ControlWriteFrame := fun _ _ reg v hgate hgrant =>
  exec_goes_on (runEngine_startSciW reg v hgate) hgrant

/-- Settles O36 in the same way. -/
theorem controlReadFrame : Obligations.ControlReadFrame := fun _ _ reg hgate hgrant =>
  exec_goes_on (runEngine_startSciR reg hgate) hgrant

/-- Settles O37: the frame and the completion, in one turn. -/
theorem ctrlWriteCompletes : Obligations.CtrlWriteCompletes := by
  intro s k hinit hgate hgrant
  exact ⟨_, exec_of_start (startOf_ctrlWrite hinit)
      (runEngine_completes (runEngine_writeFrame rfl hgate) rfl (by omega)),
    rfl, rfl, rfl, rfl, rfl, rfl, sameAround_of_control rfl⟩

/-- Settles O38: the same with the read frame, `RESULT` being made of HI and LO. -/
theorem ctrlReadCompletes : Obligations.CtrlReadCompletes := by
  intro s k hinit hgate hgrant
  exact ⟨_, exec_of_start (startOf_ctrlRead hinit)
      (runEngine_completes (runEngine_readFrame rfl hgate) rfl (by omega)),
    rfl, rfl, rfl, rfl, rfl, rfl, sameAround_of_control rfl⟩

/-- Settles O46, the byte stored by what a buffer reads as after a write. -/
theorem streamBytes : Obligations.StreamBytes := by
  intro s b
  refine ⟨?_, ?_, fun hgrant => ⟨_, exec_goes_on (runEngine_startSdiReadByte s) hgrant, fun j => ?_, rfl⟩⟩
  · rw [← startSdiWriteByte_eq]
    exact exec_goes_on rfl (Nat.zero_le _)
  · rw [← startSdiReadByte_eq]
    exact exec_goes_on rfl (Nat.zero_le _)
  · exact readBuffer_write s.dstIn s.xc j (s.misoAt 0)

/-- Settles O47, the data loop by its repetitions. -/
theorem rleRecord : Obligations.RleRecord := by
  intro s addr count value fs hfits hfs hopen hgrant
  rw [← pluginHeader_rle]
  exact exec_goes_on (runEngine_startPluginRle hfits hfs hopen) hgrant

/-- Settles O48 in the same way, each repetition reading the next word. -/
theorem literalRecord : Obligations.LiteralRecord := fun _ _ _ _ hfits hstable hfs hopen hgrant =>
  exec_goes_on (runEngine_startPluginLit hfits hstable hfs hopen) hgrant

/-- Settles O53 in the same way, each repetition reading the next two bytes. -/
theorem dataRecord : Obligations.DataRecord := by
  intro s ty len addr fs hfits hstable hfs hopen hgrant
  have hrun := runEngine_appDataRecord (ty := BitVec.ofNat 8 ty.val) hfits hstable hfs hopen
  rw [← startOf_dataRecordOf] at hrun
  exact ⟨_, exec_goes_on hrun hgrant⟩

/-- Settles O54: the activation write and the completion, in one turn. -/
theorem executeRecord : Obligations.ExecuteRecord := by
  intro s k len addr hfits hgate hgrant
  exact ⟨_, exec_completes (i := .appExec len addr) (runEngine_startAppExec hfits hgate) rfl (by omega),
    rfl, rfl, rfl, rfl, rfl, rfl, sameAround_of_load rfl⟩

/-- Settles O55: a completion where the parameter says so, else error entry. -/
theorem unknownRecordType : Obligations.UnknownRecordType := by
  intro s b i hi hgrant hcmd
  cases hsilent : s.params.silentType with
  | true =>
    have hstart : startOf i s = State.push { s with recType := b } [.complete .count] :=
      (startOf_badType hi s).trans (badAppType_silent hsilent b)
    exact ⟨_, exec_completes (n := 0) hstart rfl hgrant, rfl, rfl, rfl, rfl, sameAround_of_load rfl,
      ⟨rfl, rfl, rfl, rfl⟩, nofun, fun _ => ⟨rfl, rfl⟩⟩
  | false =>
    have hstart : startOf i s = finish .invalidFormat s.cur none (some s.xc) { s with recType := b } :=
      (startOf_badType hi s).trans (badAppType_error hsilent hcmd b)
    exact ⟨_, exec_ends hstart (finish_todo _ _ _ _ _), rfl, rfl, rfl, rfl, sameAround_of_load rfl,
      ⟨rfl, rfl, rfl, rfl⟩, fun _ => ⟨rfl, rfl⟩, nofun⟩

/-- Settles O51: the records one after the other, and the completion after the last. -/
theorem loadPluginRunsImage : Obligations.LoadPluginRunsImage := by
  intro s rs fs hinit hfits hlen hcap hstable hwords hfs hopen
  have hread : BeginsWith (fun k => s.srcwAt (0 + k)) (rs.flatMap PluginRecord.words) :=
    beginsWith_of_getD (d := 0) fun j hj => by rw [Nat.zero_add, hwords j (hlen ▸ hj)]
  exact load_completes (startOf_loadPlugin hinit hcap) rfl rfl (loadEnds_pluginImage hfits rfl hstable hread
    ((Nat.zero_add _).trans hlen.symm) hfs (framesOpen_of_record rfl hopen))

/-- Settles O57: the marker, the records one after the other, and the completion after the last or after the execute
record. -/
theorem loadAppRunsImage : Obligations.LoadAppRunsImage := by
  intro s rs entry extra fs hinit hfits hadvance hlen hextra hcap hstable hbytes hfs hopen
  have hmarker : 3 ≤ s.len := by
    rw [hlen, appImage_eq, List.length_append]
    exact Nat.le_add_right_of_le (Nat.le_add_right _ _)
  exact load_completes (startOf_loadApp hinit hcap hmarker) rfl rfl (loadEnds_appImage hfits hadvance rfl hstable
    (beginsWith_of_getD hbytes) hlen hextra hfs (framesOpen_of_record rfl hopen))

end Sys2Proof.Machine
end

section
/-! SUPPORT. A gate that does not open in time (R131, R272), and objects that begin with a gate (R133, R161, R166). -/

namespace Sys2Proof.Machine

variable {s u : State} {r ms : List Micro} {k n : Nat} {i : Instr}

/-! ### A gate at its limit -/

/-- Under a timeout of `n`, a high sample comes among the next `n`, or none does. -/
theorem gateOpens_or_notReadyFor (htimeout : s.params.readyTimeout = some n) :
    (∃ k, k < n ∧ s.gateOpens k) ∨ s.notReadyFor n := by
  by_cases hhigh : ∃ k, k < n ∧ s.readyAt k = true
  · obtain ⟨hk, hready⟩ := Nat.find_spec hhigh
    refine .inl ⟨Nat.find hhigh, hk, fun j hj => ?_, hready, fun m hm => ?_⟩
    · exact Bool.eq_false_iff.2 fun hj' => Nat.find_min hhigh hj ⟨hj.trans hk, hj'⟩
    · rwa [← Option.some.inj (htimeout.symm.trans hm)]
  · exact .inr fun j hj => Bool.eq_false_iff.2 fun hj' => hhigh ⟨j, hj, hj'⟩

/-- A low sample counted at the limit (R131, R272). -/
theorem engineStep_polled_limit (htodo : s.todo = .polled :: r) (htimeout : s.params.readyTimeout = some n)
    (hlimit : n ≤ s.polls + 1) :
    engineStep s = raise .timeout s.posNow { s.pop with polls := s.polls + 1 } := by
  rw [engineStep_polled htodo]
  obtain ⟨-, hpoll⟩ | ⟨hbelow, -⟩ := pollStep_cases s
  · exact hpoll
  · exact absurd (hbelow n htimeout) (Nat.not_lt.2 hlimit)

/-- As many low samples as the timeout says end the command: all but the last leave the gate polling. -/
theorem runEngine_timeout (htodo : s.todo = .gate :: r) (hpolls : s.polls = 0)
    (htimeout : s.params.readyTimeout = some n) (hn : 1 ≤ n) (hlow : s.notReadyFor n) :
    runEngine (2 * n) s = raise .timeout s.posNow (s.polledLow n) := by
  obtain ⟨k, rfl⟩ := Nat.exists_eq_add_of_le' hn
  have hbefore : runEngine (2 * k) s = s.polledLow k :=
    runEngine_polledLow htodo hpolls (fun j hj => hlow j (by omega)) fun m hm =>
      Option.some.inj (htimeout.symm.trans hm) ▸ Nat.lt_succ_self k
  have hlast : s.readyAt k = false := hlow k (Nat.lt_succ_self k)
  rw [Nat.mul_succ, runEngine_add, hbefore, ← runEngine_engineStep, ← runEngine_engineStep, runEngine_zero,
    engineStep_gate_low (s := s.polledLow k) htodo ((polledLow_readyAt s k 0).trans hlast),
    sampleReady_polledLow_low hlast]
  exact engineStep_polled_limit (s := State.push { s.polledLow (k + 1) with polls := k } [.polled]) rfl htimeout le_rfl

/-! ### Objects that begin with a gate -/

theorem startOf_waitReady (hinit : s.initDone = true) : startOf .waitReady s = s.gated [.complete .nothing] :=
  if_pos hinit

theorem startOf_streamWrite (hinit : s.initDone = true) (hcap : s.len ≤ s.params.srcCap) :
    startOf .streamWrite s =
      State.gated { s with xc := 0 } [.sel .data false, .stream .out, .sel .data true, .complete .count] :=
  (if_pos hinit).trans (if_neg (Nat.not_lt.2 hcap))

theorem startOf_streamRead (hinit : s.initDone = true) (hcap : s.len ≤ s.params.dstCap) :
    startOf .streamRead s =
      State.gated { s with xc := 0, dstIn := [] }
        [.sel .data false, .stream .inward, .sel .data true, .complete .received] :=
  (if_pos hinit).trans (if_neg (Nat.not_lt.2 hcap))

/-- An object whose first engine step enters a gate that does not open in time: the turn ends with TIMEOUT, whatever was
laid out after the gate. -/
theorem exec_timeout (hstart : startOf i s = u.gated ms) (htimeout : u.params.readyTimeout = some n) (hn : 1 ≤ n)
    (hlow : u.notReadyFor n) (hgrant : 2 * n ≤ s.grant) :
    exec i s = .next (raise .timeout u.posNow (u.polledLow n)) := by
  have hrun : runEngine (2 * n) (startOf i s) = raise .timeout u.posNow (u.polledLow n) := by
    rw [hstart]
    exact runEngine_timeout (s := u.gated ms) rfl rfl htimeout hn hlow
  rw [exec_goes_on hrun hgrant, runEngine_idle _ (raise_todo _ _ _)]

end Sys2Proof.Machine
end

section
/-! The statements of spec/40_flow_control.md. -/

namespace Sys2Proof.Machine

/-- Settles O32: each of the five objects begins with a gate, and none of them gets past it. -/
theorem timeoutBeforeSelect : Obligations.TimeoutBeforeSelect := by
  intro s n reg v htimeout hn hlow hgrant
  refine ⟨fun hinit => ?_, fun hinit hcap => ?_, fun hinit hcap => ?_, ?_, ?_⟩
  · exact exec_timeout (startOf_waitReady hinit) htimeout hn hlow hgrant
  · exact exec_timeout (startOf_streamWrite hinit hcap) htimeout hn hlow hgrant
  · exact exec_timeout (startOf_streamRead hinit hcap) htimeout hn hlow hgrant
  · exact exec_timeout (i := .sciW reg v) rfl htimeout hn hlow hgrant
  · exact exec_timeout (i := .sciR reg) rfl htimeout hn hlow hgrant

/-- Settles O33, the gate under a timeout by its first high sample, if one comes in time. -/
theorem gateHangsOrEnds : Obligations.GateHangsOrEnds := by
  refine ⟨fun s r m htodo hpolls htimeout hlow => ?_, fun s r n htodo hpolls htimeout hn => ?_⟩
  · have hrun : runEngine (2 * m) s = s.polledLow m :=
      runEngine_polledLow htodo hpolls hlow fun n hn => nomatch htimeout.symm.trans hn
    have htodo' : (s.polledLow m).todo = .gate :: r := htodo
    exact ⟨hrun, by rw [hrun, busy_iff, htodo']; exact List.cons_ne_nil _ _⟩
  · obtain ⟨k, hk, hgate⟩ | hlow := gateOpens_or_notReadyFor htimeout
    · have hrun : runEngine (2 * (k + 1) - 1) s = (s.gatePassed k).pop := runEngine_gatePassed htodo hpolls hgate
      refine ⟨k + 1, Nat.le_add_left 1 k, hk, .inl ?_⟩
      rw [hrun]
      exact ⟨congrArg List.tail htodo, rfl⟩
    · refine ⟨n, hn, le_rfl, .inr ?_⟩
      rw [runEngine_timeout htodo hpolls htimeout hn hlow]
      exact ⟨rfl, rfl, rfl⟩

/-- Settles O34: the gate and the completion, in one turn. -/
theorem waitReadyCompletes : Obligations.WaitReadyCompletes := by
  intro s k hinit hgate hgrant
  have hrun : runEngine (2 * k + 1) (startOf .waitReady s) = ((s.gated [.complete .nothing]).gatePassed k).pop := by
    rw [startOf_waitReady hinit]
    exact runEngine_gatePassed (s := s.gated _) rfl rfl hgate
  exact ⟨_, exec_completes hrun rfl hgrant, rfl, rfl, rfl, rfl, rfl, rfl, sameAround_of_control rfl⟩

end Sys2Proof.Machine
end

section
/-! SUPPORT. When two bytes received make a given value (R64, R65). -/

namespace Sys2Proof.Machine

/-- Two bytes put together are a value exactly when they are its high and its low byte. -/
theorem cat16_eq_iff {h l : Byte} {v : Half} : cat16 h l = v ↔ h = hi8 v ∧ l = lo8 v := by
  constructor
  · rintro rfl
    exact ⟨(hi8_cat16 h l).symm, (lo8_cat16 h l).symm⟩
  · rintro ⟨rfl, rfl⟩
    exact cat16_hi8_lo8 v

end Sys2Proof.Machine
end

section
/-! The statements of spec/41_control.md. -/

namespace Sys2Proof.Machine

/-- Settles O39: O37 and then O38, whose `RESULT` is the value written when its two bytes are. -/
theorem writeThenReadRoundTrip : Obligations.WriteThenReadRoundTrip := by
  intro s k hinit hgate hgrant
  obtain ⟨_, hwrite, rfl, -⟩ := ctrlWriteCompletes s k hinit hgate hgrant
  refine ⟨_, hwrite, complete_trace _ _, fun u j hkept _ hreg hopens hroom => ?_⟩
  have huinit : u.initDone = true := hkept.trans ((complete_initDone _ _).trans hinit)
  obtain ⟨_, hread, rfl, -, -, hresult, -⟩ := ctrlReadCompletes u j huinit hopens hroom
  rw [hreg] at hread hresult
  refine ⟨_, hread, complete_trace _ _, ?_⟩
  rw [hresult]
  exact cat16_eq_iff

end Sys2Proof.Machine
end

section
/-! SUPPORT. A streaming bracket (R160-R162, R166), the same for both directions but for the byte sent and where the
byte received goes: its loop byte by byte, its end, and the command around it. -/

namespace Sys2Proof.Machine

variable {s : State} {d : Dir} {r : List Micro} {j k m n : Nat} {w : Written}

/-! ### The memory a streaming read writes -/

theorem storeBytes_succ (c : List Host.Cell) (m : Nat) (f : Nat → Byte) :
    storeBytes c (m + 1) f = writeBuffer (storeBytes c m f) m (f m) := by
  simp [storeBytes, List.range_succ]

/-- The first `m` elements hold the bytes written, the others what they held. -/
theorem readBuffer_storeBytes (c : List Host.Cell) (m : Nat) (f : Nat → Byte) (j : Nat) :
    readBuffer (storeBytes c m f) j = if j < m then some (f j) else readBuffer c j := by
  induction m with
  | zero => rfl
  | succ m ih =>
    rw [storeBytes_succ, readBuffer_write, ih]
    obtain hlt | rfl | hgt := Nat.lt_trichotomy j m
    · rw [if_neg hlt.ne, if_pos hlt, if_pos (Nat.lt_succ_of_lt hlt)]
    · rw [if_pos rfl, if_pos (Nat.lt_succ_self j)]
    · rw [if_neg hgt.ne', if_neg (Nat.lt_asymm hgt), if_neg (by omega)]

/-! ### One byte of the loop -/

/-- The byte sent as byte `j` of a bracket (R161, R166). -/
def State.sent (s : State) (d : Dir) (j : Nat) : Byte :=
  match d with
  | .out => s.srcAt j
  | .inward => 0xFF

/-- What `DstByte` has written after `j` bytes of a bracket (R166). -/
def State.stored (s : State) (d : Dir) (j : Nat) : List Host.Cell :=
  match d with
  | .out => s.dstIn
  | .inward => storeBytes s.dstIn j s.misoAt

/-- What `DstByte` has written once byte `b` has been received at count `j`: a streaming write discards it
(R161, R166). -/
def Dir.keep (d : Dir) (c : List Host.Cell) (j : Nat) (b : Byte) : List Host.Cell :=
  match d with
  | .out => c
  | .inward => writeBuffer c j b

theorem stored_succ (s : State) (d : Dir) (j : Nat) : s.stored d (j + 1) = d.keep (s.stored d j) j (s.misoAt j) := by
  cases d with
  | out => rfl
  | inward => exact storeBytes_succ s.dstIn j s.misoAt

/-- A streaming write reads only elements of `SRC` that no host write raced (R82). -/
def State.fetchesStable (s : State) (d : Dir) : Prop := d = .out → s.srcOld = []

/-- A sample of 1 below the count leads to a byte (R162). -/
theorem engineStep_stream_high (htodo : s.todo = .stream d :: r) (hcount : s.xc < s.len) (hhigh : s.readyAt 0 = true) :
    engineStep s = (sampleReady s).2.push [d.byteItem] := by
  rw [engineStep_stream htodo]
  cases d <;> simp [streamStep, hcount, hhigh, Dir.byteItem]

/-- A sample of 0 below the count ends the loop (R162). -/
theorem engineStep_stream_low (htodo : s.todo = .stream d :: r) (hcount : s.xc < s.len) (hlow : s.readyAt 0 = false) :
    engineStep s = (sampleReady s).2.pop := by
  simp [engineStep_stream htodo, streamStep, hcount, hlow]

/-- At the count the loop ends without a sample (R162). -/
theorem engineStep_stream_count (htodo : s.todo = .stream d :: r) (hcount : s.len ≤ s.xc) : engineStep s = s.pop := by
  rw [engineStep_stream htodo]
  exact if_neg (Nat.not_lt.2 hcount)

theorem pop_eq_withTodo {m : Micro} (htodo : s.todo = m :: r) : s.pop = s.withTodo r := by
  rw [State.pop, htodo]
  rfl

/-- After one more byte of a bracket, sent and received (R161, R166). -/
def State.byteDone (s : State) (d : Dir) : State :=
  { s with
    misoIn := s.misoIn.drop 1
    misoCount := s.misoCount + 1
    xc := s.xc + 1
    dstIn := d.keep s.dstIn s.xc (s.misoAt 0)
    trace := s.trace ++ [.xfer (s.sent d s.xc) (s.misoAt 0)] }

/-- What follows a sample of 1: a streaming write fetches a byte and sends it, a streaming read sends 0xFF and stores
what it receives. -/
theorem runEngine_byteItem (htodo : s.todo = d.byteItem :: r) (hstable : s.fetchesStable d) :
    runEngine 2 s = (s.byteDone d).withTodo r := by
  rw [← runEngine_engineStep]
  cases d with
  | out =>
    have hfetch : engineStep s = s.withTodo (.sendByte (s.srcAt s.xc) :: r) := by
      rw [engineStep_fetchByte htodo, fetchStep, srcByte_stable _ _ (hstable rfl), pop_eq_withTodo htodo]
      rfl
    rw [hfetch, ← runEngine_engineStep, runEngine_zero, engineStep_sendByte rfl, startSdiWriteByte_eq]
    rfl
  | inward =>
    rw [engineStep_receiveByte htodo, runEngine_startSdiReadByte, pop_eq_withTodo htodo]
    rfl

/-! ### The loop -/

/-- After the first `j` bytes of a bracket, each after its sample of 1, the pseudocode still to be run being `ms`. -/
def State.inBracket (s : State) (d : Dir) (j : Nat) (ms : List Micro) : State :=
  { s with
    rdyIn := s.rdyIn.drop j
    rdyCount := s.rdyCount + j
    lastRdy := true
    misoIn := s.misoIn.drop j
    misoCount := s.misoCount + j
    xc := j
    dstIn := s.stored d j
    todo := ms
    trace := s.trace ++ (List.range j).flatMap fun i => [.rdy true, .xfer (s.sent d i) (s.misoAt i)] }

theorem inBracket_readyAt (ms : List Micro) (i : Nat) : (s.inBracket d j ms).readyAt i = s.readyAt (j + i) := by
  simp [State.inBracket, State.readyAt, Nat.add_assoc]

/-- One byte of a bracket: its sample and its two further engine steps. -/
theorem runEngine_inBracket_succ (hcount : j < s.len) (hhigh : s.readyAt j = true) (hstable : s.fetchesStable d) :
    runEngine 3 (s.inBracket d j (.stream d :: r)) = s.inBracket d (j + 1) (.stream d :: r) := by
  have hready : (s.inBracket d j (.stream d :: r)).readyAt 0 = true := (inBracket_readyAt _ 0).trans hhigh
  have hbyte := runEngine_byteItem (s := (sampleReady (s.inBracket d j (.stream d :: r))).2.push [d.byteItem])
    (r := .stream d :: r) rfl hstable
  rw [← runEngine_engineStep, engineStep_stream_high rfl hcount hready, hbyte, sampleReady_eq, hready]
  simp [State.push, State.inBracket, State.byteDone, State.withTodo, stored_succ, List.range_succ, State.sent,
    State.srcAt, State.misoAt, Nat.add_assoc]

/-- The first `m` bytes of a bracket. -/
theorem runEngine_inBracket (hcount : m ≤ s.len) (hready : s.readyFor m) (hstable : s.fetchesStable d) :
    runEngine (3 * m) (s.inBracket d 0 (.stream d :: r)) = s.inBracket d m (.stream d :: r) := by
  induction m with
  | zero => rfl
  | succ m ih =>
    rw [Nat.mul_succ, runEngine_add, ih (Nat.le_of_succ_le hcount) fun j hj => hready j (Nat.lt_succ_of_lt hj),
      runEngine_inBracket_succ hcount (hready m (Nat.lt_succ_self m)) hstable]

/-- The end of the loop: at the count `n` it ends without a sample, below it with a sample of 0 (R162). -/
theorem engineStep_inBracket_end (hlen : s.len = n) (hcount : m ≤ n) (hstop : m < n → s.readyAt m = false) :
    engineStep (s.inBracket d m (.stream d :: r)) =
      { s.inBracket d m r with
        rdyIn := s.rdyIn.drop (m + if m < n then 1 else 0)
        rdyCount := s.rdyCount + (m + if m < n then 1 else 0)
        lastRdy := decide (n ≤ m)
        trace := (s.inBracket d m r).trace ++ if m < n then [.rdy false] else [] } := by
  obtain hlt | rfl := Nat.lt_or_eq_of_le hcount
  · have hlow : (s.inBracket d m (.stream d :: r)).readyAt 0 = false := (inBracket_readyAt _ 0).trans (hstop hlt)
    rw [engineStep_stream_low rfl (hlt.trans_eq hlen.symm) hlow, sampleReady_eq, hlow]
    simp [State.inBracket, State.pop, hlt, Nat.add_assoc]
  · rw [engineStep_stream_count rfl hlen.le]
    simp [State.inBracket, State.pop]

/-! ### The bracket -/

/-- The items of a streaming command (R161, R166). -/
def bracketItems (d : Dir) (w : Written) : List Micro := [.sel .data false, .stream d, .sel .data true, .complete w]

/-- The bracket is open, after a gate that opened after `k` low samples (R160). -/
def State.bracketOpened (s : State) (k : Nat) : State := driveSelect .data false (s.gatePassed k)

theorem bracketOpened_readyAt (s : State) (k j : Nat) : (s.bracketOpened k).readyAt j = s.readyAt (k + 1 + j) := by
  simp [State.bracketOpened, driveSelect, State.gatePassed, State.readyAt, Nat.add_assoc]

theorem bracketOpened_misoAt (s : State) (k : Nat) : (s.bracketOpened k).misoAt = s.misoAt := rfl
theorem bracketOpened_sent (s : State) (k : Nat) : (s.bracketOpened k).sent = s.sent := rfl
theorem bracketOpened_stored (s : State) (k : Nat) : (s.bracketOpened k).stored = s.stored := rfl

/-- The edge that opens the bracket, after its gate. -/
theorem engineStep_opens_bracket (hxc : s.xc = 0) :
    engineStep ((s.gated (bracketItems d w)).gatePassed k).pop =
      (s.bracketOpened k).inBracket d 0 (.stream d :: .sel .data true :: .complete w :: s.todo) := by
  have hstored : s.stored d 0 = s.dstIn := by cases d <;> rfl
  rw [engineStep_sel rfl]
  simp only [State.inBracket, bracketOpened_stored, hstored]
  simp [State.bracketOpened, State.gatePassed, State.gated, State.pop, driveSelect, bracketItems, hxc]

/-- A bracket with its gate, from the polling loop to the edge that closes it. -/
theorem runEngine_bracket (hxc : s.xc = 0) (hstable : s.fetchesStable d) (hgate : s.gateOpens k)
    (hbracket : s.bracketOf k m s.len) :
    runEngine (2 * k + 3 * m + 4) (s.gated (bracketItems d w)) =
      { s.streamed k m (s.sent d) with dstIn := s.stored d m, todo := .complete w :: s.todo } := by
  obtain ⟨hcount, hhigh, hstop⟩ := hbracket
  have hlen : (s.bracketOpened k).len = s.len := rfl
  have hready : (s.bracketOpened k).readyFor m := fun j hj => (bracketOpened_readyAt s k j).trans (hhigh j hj)
  have hend : m < s.len → (s.bracketOpened k).readyAt m = false := fun hm =>
    (bracketOpened_readyAt s k m).trans (hstop hm)
  have hsteps : 2 * k + 3 * m + 4 = 2 * k + 1 + (3 * m + 2 + 1) := by omega
  rw [hsteps, runEngine_add, runEngine_gatePassed (s := s.gated _) rfl rfl hgate, ← runEngine_engineStep,
    engineStep_opens_bracket hxc, runEngine_add, runEngine_inBracket (hcount.trans_eq hlen.symm) hready hstable,
    ← runEngine_engineStep, engineStep_inBracket_end hlen hcount hend, ← runEngine_engineStep, engineStep_sel rfl,
    runEngine_zero]
  simp only [driveSelect, State.pop, State.inBracket, bracketOpened_misoAt, bracketOpened_sent, bracketOpened_stored]
  simp [State.bracketOpened, driveSelect, State.gatePassed, State.streamed, bracketEvents, Nat.add_assoc]

/-! ### The commands -/

/-- A streaming command whose first engine step enters the gate of its bracket. -/
theorem exec_stream {i : Instr} {u : State} (hstart : startOf i s = u.gated (bracketItems d w)) (hxc : u.xc = 0)
    (hstable : u.fetchesStable d) (hgate : u.gateOpens k) (hbracket : u.bracketOf k m u.len)
    (hgrant : 2 * k + 3 * m + 5 ≤ s.grant) :
    exec i s = .next (complete w { u.streamed k m (u.sent d) with dstIn := u.stored d m }) := by
  have hrun : runEngine (2 * k + 3 * m + 4) (startOf i s) =
      { u.streamed k m (u.sent d) with dstIn := u.stored d m, todo := .complete w :: u.todo } := by
    rw [hstart]
    exact runEngine_bracket hxc hstable hgate hbracket
  rw [exec_completes hrun rfl hgrant]
  cases w <;> rfl

/-- A count within a latched length is the value of `XCOUNT` (R33). -/
theorem countRegister_of_le_len (hm : m ≤ s.len) : countRegister m = BitVec.ofNat 32 m :=
  if_pos (Nat.lt_of_le_of_lt hm s.lLen.isLt)

end Sys2Proof.Machine
end

section
/-! The statements of spec/42_streaming.md. -/

namespace Sys2Proof.Machine

/-- Settles O44: the gate, the bracket byte by byte, and the completion, in one turn. -/
theorem streamWriteCompletes : Obligations.StreamWriteCompletes := by
  intro s k m hinit hcap hstable hgate hbracket hgrant
  exact ⟨_, exec_stream (d := .out) (startOf_streamWrite hinit hcap) rfl (fun _ => hstable.1) hgate hbracket hgrant,
    rfl, rfl, rfl, rfl, countRegister_of_le_len hbracket.1, rfl, fun _ => rfl, fun _ => rfl, fun _ => rfl⟩

/-- Settles O45 in the same way, `DST` by what it reads as once the completion has written the bytes received. -/
theorem streamReadCompletes : Obligations.StreamReadCompletes := by
  intro s k m hinit hcap hgate hbracket hgrant
  refine ⟨_, exec_stream (d := .inward) (startOf_streamRead hinit hcap) rfl nofun hgate hbracket hgrant,
    rfl, fun j => ?_, rfl, rfl, rfl, countRegister_of_le_len hbracket.1, rfl, fun _ => rfl, fun _ => rfl⟩
  calc
    _ = (readBuffer (storeBytes [] m s.misoAt) j).getD (s.dstAt j) := commitDst_dstAt _ j
    _ = if j < m then s.misoAt j else s.dstAt j := by
      rw [readBuffer_storeBytes]
      split <;> rfl

end Sys2Proof.Machine
end

section
/-! SUPPORT. A read-modify-write (R185-R191): its first engine step, the modification with the write that always follows
it, and the bits a mask leaves. -/

namespace Sys2Proof.Machine

variable {s : State} {r : List Micro} {j k : Nat} {op : Rmw} {reg : Byte}

/-- The command of each read-modify-write operation (R187, R190). -/
def Rmw.command : Rmw → Instr
  | .set => .regSetBits
  | .clear => .regClearBits

theorem startOf_readModifyWrite (op : Rmw) (hinit : s.initDone = true) :
    startOf op.command s = s.push [.readFrame s.lReg, .modify op, .complete (.modified op)] := by
  cases op with
  | set => exact if_pos hinit
  | clear => exact if_pos hinit

/-- The modification and its write, whatever the value read (R189). -/
theorem runEngine_modify (htodo : s.todo = .modify op :: r) (hgate : s.gateOpens k) :
    runEngine (2 * k + 9) s =
      (State.wroteFrame { s with rd := s.readBack } k s.lReg (op.apply s.readBack s.lA)).pop := by
  rw [← runEngine_engineStep, engineStep_modify htodo]
  exact runEngine_writeFrame rfl hgate

/-- A control read and then a modification of the value read. -/
theorem runEngine_readFrame_modify (htodo : s.todo = .readFrame reg :: .modify op :: r) (hread : s.gateOpens j)
    (hwrite : (s.didReadFrame j reg).gateOpens k) :
    runEngine (2 * (j + k) + 17) s =
      (State.wroteFrame { (s.didReadFrame j reg).pop with rd := s.nextRead } k s.lReg
        (op.apply s.nextRead s.lA)).pop := by
  have hsteps : 2 * (j + k) + 17 = 2 * j + 8 + (2 * k + 9) := by omega
  rw [hsteps, runEngine_add, runEngine_readFrame htodo hread]
  exact runEngine_modify (congrArg List.tail htodo) hwrite

/-! ### Masks -/

/-- Bits that are cleared do not depend on whether they were set before. -/
theorem or_and_not_mask {n : Nat} (u m : BitVec n) : (u ||| m) &&& ~~~m = u &&& ~~~m := by
  ext i hi
  simp [Bool.and_or_distrib_right]

/-- Clearing bits leaves a value alone exactly when none of them is 1 in it. -/
theorem and_not_mask_eq_iff {n : Nat} {u m : BitVec n} : u &&& ~~~m = u ↔ u &&& m = 0 := by
  have hbit (a b : Bool) : (a && !b) = a ↔ (a && b) = false := by cases a <;> simp
  simp [BitVec.eq_of_getElem_eq_iff, hbit]

end Sys2Proof.Machine
end

section
/-! The statements of spec/43_register_map.md. -/

namespace Sys2Proof.Machine

/-- Settles O42: the read frame, the modification, the write frame and the completion, in one turn, the same for both
operations. -/
theorem readModifyWriteCompletes : Obligations.ReadModifyWriteCompletes := by
  intro s j k i op w hcommand hinit hread hwrite hgrant
  obtain ⟨rfl, rfl⟩ : i = op.command ∧ w = op.apply s.nextRead s.lA := by
    obtain ⟨rfl, rfl, rfl⟩ | ⟨rfl, rfl, rfl⟩ := hcommand
    · exact ⟨rfl, rfl⟩
    · exact ⟨rfl, rfl⟩
  exact ⟨_, exec_of_start (startOf_readModifyWrite op hinit)
      (runEngine_completes (runEngine_readFrame_modify rfl hread hwrite) rfl (by omega)),
    rfl, rfl, rfl, rfl, rfl, rfl, sameAround_of_control rfl⟩

/-- Settles O43, bit by bit. -/
theorem setThenClearLaw : Obligations.SetThenClearLaw := by
  intro u m
  have hclear : Rmw.clear.apply (Rmw.set.apply u m) m = u &&& ~~~m := or_and_not_mask u m
  exact ⟨hclear, (Eq.congr_left hclear).trans and_not_mask_eq_iff⟩

end Sys2Proof.Machine
end

section
/-! SUPPORT. A load that ends in an error at its record (R202, R275): what the turn leaves, the same for every record
and both loaders, and the three ways in which a plugin record does not fit its image. -/

namespace Sys2Proof.Machine

variable {s u : State} {r : List Micro} {n : Nat}

/-! ### A record that ends its load with an error -/

/-- An error of a loader writes the completion registers, `XCOUNT` with the data writes so far, and nothing of `DST`
(R275). -/
theorem raise_of_loader (hcmd : decodeCommand s.lCmd ∈ [Instr.loadPlugin, .loadApp]) (e : ErrCode) (pos : Nat) :
    raise e pos s = finish e pos none (some s.xc) s := by
  obtain ⟨hread, -⟩ | ⟨-, hraise⟩ := raise_cases s e pos
  · rw [hread] at hcmd
    exact absurd hcmd (by decide)
  · have hcounts : countsTransfers s.lCmd = true := (countsTransfers_iff s.lCmd).2 (.tail _ (.tail _ hcmd))
    rw [hraise, if_pos hcounts]

/-- Within `n` engine steps, none of which writes more than a loader computes about a record, the engine ends the load
with the error `e` at the cursor. -/
def State.LoadFails (s : State) (e : ErrCode) (n : Nat) : Prop :=
  ∃ u, u = s.withRecord u ∧ u.xc = s.xc ∧ ∃ m, m ≤ n ∧ runEngine m s = raise e s.cur u

theorem State.LoadFails.mono {e : ErrCode} {m : Nat} (h : s.LoadFails e m) (hmn : m ≤ n) : s.LoadFails e n := by
  obtain ⟨u, hrecord, hxc, k, hk, hrun⟩ := h
  exact ⟨u, hrecord, hxc, k, hk.trans hmn, hrun⟩

/-- A failing load leaves the error's registers and no bus event, in every turn that is long enough. -/
theorem step_of_loadFails {e : ErrCode} (hagenda : s.agenda = [])
    (hcmd : decodeCommand s.lCmd ∈ [Instr.loadPlugin, .loadApp]) (hfails : s.LoadFails e n) (hgrant : n ≤ s.grant + 1) :
    ∃ t, step s = .next t ∧ t.err = e ∧ t.errPos = BitVec.ofNat 32 s.cur ∧ t.busy = false ∧
      t.xcount = countRegister s.xc ∧ t.trace = s.trace ∧ t.result = s.result ∧ s.sameAround t ∧ s.sameLines t := by
  obtain ⟨u, hrecord, hxc, m, hm, hrun⟩ := hfails
  obtain ⟨d, hd⟩ := Nat.exists_eq_add_of_le (hm.trans hgrant)
  have hcmd' : decodeCommand u.lCmd ∈ [Instr.loadPlugin, .loadApp] := by
    rw [hrecord]
    exact hcmd
  have hstep : step s = .next (finish e s.cur none (some s.xc) (s.withRecord u)) := by
    rw [step_of_agenda_nil hagenda, hd, runEngine_add, hrun, runEngine_idle _ (raise_todo u e s.cur),
      raise_of_loader hcmd', hxc, ← hrecord]
  exact ⟨_, hstep, rfl, rfl, rfl, rfl, rfl, rfl, sameAround_of_load rfl, rfl, rfl, rfl, rfl⟩

/-! ### Plugin records that do not fit (R201, R202) -/

/-- Words that are whole and no record end the load at the record's start (R106, R107). -/
theorem meet_pluginWords_bad {ws : List Half} {e : DecodeError} (htodo : s.todo = .pluginWords ws :: r)
    (hwhole : s.pluginWhole ws = true) (h : decodePlugin ws = .error e) : meet s = .bad .outOfBounds s.cur := by
  simp [meet, htodo, hwhole, metOf, decode, h]

/-- The count of a literal record is its header word (R99). -/
theorem litCount_toNat {w : Half} (hlit : w.getLsbD 15 = false) : (w.extractLsb' 0 15).toNat = w.toNat := by
  have hfields := pluginHeader_fields w
  rw [hlit, pluginHeader_lit] at hfields
  have hcount := (w.extractLsb' 0 15).isLt
  rw [← congrArg BitVec.toNat hfields, BitVec.toNat_ofNat, Nat.mod_eq_of_lt (by omega)]

/-- A literal record that overruns the image ends the load in its first engine step, its fields being set (R202). -/
theorem startPluginLit_overrun {addr : Half} {count : BitVec 15} (hover : s.len < s.cur + (2 + count.toNat)) :
    startPluginLit addr count s =
      raise .outOfBounds s.cur { s with recAddr := addr, recHdr := count.zeroExtend 16 } :=
  if_pos hover

/-- The loop's head, two words read, and an engine step that ends the load. -/
theorem loadFails_of_header (htodo : s.todo = .pluginRecord :: r) (hstable : s.sourcesStable) (hlen : s.cur + 2 ≤ s.len)
    (hstep : engineStep (s.withTodo (.pluginWords [s.wordFrom 0, s.wordFrom 1] :: r)) = raise .outOfBounds s.cur u)
    (hrecord : u = s.withRecord u) (hxc : u.xc = s.xc) : s.LoadFails .outOfBounds 4 := by
  have hread : runEngine 3 s = s.withTodo (.pluginWords [s.wordFrom 0, s.wordFrom 1] :: r) :=
    runEngine_to_plugin (n := 2) htodo hstable hlen fun k hk => by
      match k, hk with
      | 0, _ | 1, _ => rfl
  refine ⟨u, hrecord, hxc, 4, le_rfl, ?_⟩
  rw [runEngine_add 3 1, hread, ← runEngine_engineStep, runEngine_zero, hstep]

/-- One word left: the loop's head ends the load. -/
theorem loadFails_of_one_word (htodo : s.todo = .pluginRecord :: r) (hlen : s.len = s.cur + 1) :
    s.LoadFails .outOfBounds 1 := by
  have hmore : ¬ s.len ≤ s.cur := by omega
  have hshort : s.len < s.cur + 2 := by omega
  refine ⟨s, rfl, rfl, 1, le_rfl, ?_⟩
  rw [← runEngine_engineStep, runEngine_zero, engineStep_pluginRecord htodo, pluginStep, if_neg hmore, if_pos hshort]

/-- An RLE header at the image's end: its two words are no record. -/
theorem loadFails_of_rle_without_value (htodo : s.todo = .pluginRecord :: r) (hstable : s.sourcesStable)
    (hlen : s.len = s.cur + 2) (hrle : (s.wordFrom 1).getLsbD 15 = true) : s.LoadFails .outOfBounds 4 := by
  have hwhole : s.pluginWhole [s.wordFrom 0, s.wordFrom 1] = true := by
    rw [pluginWhole_two, hlen]
    simp
  have hmeet := meet_pluginWords_bad (s := s.withTodo (.pluginWords [s.wordFrom 0, s.wordFrom 1] :: r)) rfl hwhole
    (decodePlugin_rle_short hrle)
  exact loadFails_of_header htodo hstable hlen.ge (engineStep_of_meet_bad hmeet) rfl rfl

/-- A literal record whose count overruns: it is decoded, and refused before its address write. -/
theorem loadFails_of_lit_overrun (htodo : s.todo = .pluginRecord :: r) (hstable : s.sourcesStable)
    (hlen : s.cur + 2 ≤ s.len) (hlit : (s.wordFrom 1).getLsbD 15 = false)
    (hover : s.len < s.cur + 2 + (s.wordFrom 1).toNat) : s.LoadFails .outOfBounds 4 := by
  have hwhole : s.pluginWhole [s.wordFrom 0, s.wordFrom 1] = true := by
    rw [pluginWhole_two, hlit]
    rfl
  have hmeet := meet_pluginWords (s := s.withTodo (.pluginWords [s.wordFrom 0, s.wordFrom 1] :: r)) rfl hwhole
    (decodePlugin_lit hlit [])
  have hraise := startPluginLit_overrun (s := s.withTodo r) (addr := s.wordFrom 0)
    (count := (s.wordFrom 1).extractLsb' 0 15) (by rwa [litCount_toNat hlit, ← Nat.add_assoc])
  exact loadFails_of_header htodo hstable hlen ((engineStep_of_meet_instr hmeet).trans hraise) rfl rfl

end Sys2Proof.Machine
end

section
/-! The statements of spec/44_plugin_loader.md. -/

namespace Sys2Proof.Machine

/-- Settles O49: the loop's head, the decoder or the record's own check ends the load, in at most four engine steps. -/
theorem pluginOverrun : Obligations.PluginOverrun := by
  intro s r hgrant hcmd hagenda htodo hstable _ hover
  have hfails : s.LoadFails .outOfBounds 4 := by
    by_cases hone : s.len = s.cur + 1
    · exact (loadFails_of_one_word htodo hone).mono (by decide)
    · obtain hone' | ⟨hlen, hrle⟩ | ⟨hlit, hlong⟩ := hover
      · exact absurd hone' hone
      · exact loadFails_of_rle_without_value htodo hstable hlen hrle
      · exact loadFails_of_lit_overrun htodo hstable (by omega) hlit hlong
  exact step_of_loadFails hagenda (List.mem_pair.2 (.inl hcmd)) hfails (Nat.succ_le_succ hgrant)

/-- Settles O50: the loop ends where it begins, and the completion follows. -/
theorem emptyPluginImage : Obligations.EmptyPluginImage := by
  intro s hinit hlen hgrant
  have hstart := startOf_loadPlugin hinit (hlen.trans_le (Nat.zero_le s.params.srcwCap))
  have hend : s.len ≤ 0 := hlen.le
  have hrun : runEngine 1 (startOf .loadPlugin s) =
      { s with xc := 0, cur := 0, todo := .complete .count :: s.todo } := by
    rw [hstart, ← runEngine_engineStep, runEngine_zero, engineStep_pluginRecord rfl]
    exact if_pos hend
  exact ⟨_, exec_completes hrun rfl hgrant, rfl, rfl, rfl, rfl, rfl, rfl, sameAround_of_load rfl, rfl, rfl, rfl, rfl⟩

end Sys2Proof.Machine
end

section
/-! SUPPORT. Application images whose load ends at the marker (R222, R223), and application records that do not fit
their buffer (R225, R281). -/

namespace Sys2Proof.Machine

variable {s u : State} {r : List Micro} {n : Nat}

/-! ### An error at the marker (R222) -/

/-- A turn in which the engine enters an error is that error entry. -/
theorem step_of_raise {e : ErrCode} {pos : Nat} (hagenda : s.agenda = []) (hrun : runEngine n s = raise e pos u)
    (hgrant : n ≤ s.grant + 1) : step s = .next (raise e pos u) := by
  obtain ⟨d, hd⟩ := Nat.exists_eq_add_of_le hgrant
  rw [step_of_agenda_nil hagenda, hd, runEngine_add, hrun, runEngine_idle _ (raise_todo u e pos)]

/-- An outcome that is the error entry of a load at its marker, nothing but a record's fields having changed (R275). -/
theorem marker_error_leaves {o : Host.Outcome State Fault Refusal} (hcmd : decodeCommand s.lCmd = .loadApp)
    (hrecord : u = s.withRecord u) (ho : o = .next (raise .invalidFormat 0 u)) :
    ∃ t, o = .next t ∧ t.err = .invalidFormat ∧ t.errPos = 0 ∧ t.xcount = countRegister u.xc ∧
      t.trace = s.trace ∧ t.busy = false ∧ t.result = s.result ∧ s.sameAround t ∧ s.sameLines t := by
  have hcmd' : decodeCommand u.lCmd = .loadApp := by
    rw [hrecord]
    exact hcmd
  have hraise : raise .invalidFormat 0 u = finish .invalidFormat 0 none (some u.xc) (s.withRecord u) := by
    rw [raise_of_loadApp hcmd', ← hrecord]
  exact ⟨_, ho.trans (congrArg _ hraise), rfl, rfl, rfl, rfl, rfl, rfl, sameAround_of_load rfl, rfl, rfl, rfl, rfl⟩

/-- LOAD_APP of an image shorter than the marker, after its other checks (R222). -/
theorem startOf_loadApp_short (hinit : s.initDone = true) (hcap : s.len ≤ s.params.srcCap) (hshort : s.len < 3) :
    startOf .loadApp s = raise .invalidFormat 0 { s with xc := 0 } :=
  (if_pos hinit).trans ((if_neg (Nat.not_lt.2 hcap)).trans (if_pos hshort))

/-- Three bytes other than the marker's are no marker (R102). -/
theorem decodeMagic_of_ne {a b c : Byte} (h : ¬ (a = 0x50 ∧ b = 0x26 ∧ c = 0x48)) :
    decodeMagic [a, b, c] = .error .badMagic :=
  if_neg h

theorem meet_magicBytes_bad {bs : List Byte} {e : DecodeError} (htodo : s.todo = .magicBytes bs :: r)
    (hwhole : 3 ≤ bs.length) (h : decodeMagic bs = .error e) : meet s = .bad .invalidFormat 0 := by
  simp [meet, htodo, Nat.not_lt.2 hwhole, metOf, decode, h]

/-- Three bytes are read, whatever they are, where no write raced. -/
theorem runEngine_reads_marker (htodo : s.todo = .magicBytes [] :: r) (hstable : s.sourcesStable) :
    runEngine 3 s = s.withTodo (.magicBytes (firstOf s.srcAt 3) :: r) := by
  have hbegin : s = s.withTodo (.magicBytes [] :: r) := by
    rw [← htodo]
    rfl
  rw [congrArg (runEngine 3) hbegin]
  refine runEngine_reads s.srcAt .magicBytes 3 fun k hk => ?_
  rw [engineStep_reads_marker (by simpa using hk) hstable, length_firstOf]

/-- Bytes other than the marker end the load in the engine step after they are read (R222). -/
theorem runEngine_wrong_marker (htodo : s.todo = .magicBytes [] :: r) (hstable : s.sourcesStable)
    (hwrong : ¬ (s.srcAt 0 = 0x50 ∧ s.srcAt 1 = 0x26 ∧ s.srcAt 2 = 0x48)) :
    runEngine 4 s = raise .invalidFormat 0 (s.withTodo (.magicBytes (firstOf s.srcAt 3) :: r)) := by
  have hmeet := meet_magicBytes_bad (s := s.withTodo (.magicBytes (firstOf s.srcAt 3) :: r)) rfl le_rfl
    (decodeMagic_of_ne hwrong)
  rw [runEngine_add 3 1, runEngine_reads_marker htodo hstable, ← runEngine_engineStep, runEngine_zero,
    engineStep_of_meet_bad hmeet]

/-! ### Application records that do not fit (R225, R281) -/

theorem meet_appBytes_bad {bs : List Byte} {e : DecodeError} (htodo : s.todo = .appBytes bs :: r)
    (hwhole : s.appWhole bs = true) (h : decodeApp bs = .error e) : meet s = .bad .outOfBounds s.cur := by
  simp [meet, htodo, hwhole, metOf, decode, h]

/-- The type alone is no record, where it is not above 3 (R103). -/
theorem decodeApp_type_alone {t : Byte} (htype : ¬ 3 < t.toNat) : decodeApp [t] = .error .truncatedRecord :=
  if_neg htype

/-- The type alone is read as far as needed where the header does not lie inside the buffer (R281). -/
theorem appWhole_of_short (t : Byte) (hshort : s.len < s.cur + 5) : s.appWhole [t] = true := by
  simp [State.appWhole, hshort]

/-- A header that lies inside the buffer is read to its fifth byte, where its type is not above 3 (R103). -/
theorem appWhole_of_part {k : Nat} (htype : ¬ 3 < (s.byteFrom 0).toNat) (hlen : s.cur + 5 ≤ s.len) (hk : k < 5) :
    s.appWhole (firstOf s.byteFrom k) = false := by
  cases k with
  | zero => rfl
  | succ k =>
    have hpart : ¬ 4 ≤ k := by omega
    simp [firstOf_cons, State.appWhole, htype, Nat.not_lt.2 hlen, hpart]

/-- Five bytes whose type is below 3 are the header of a data record (R103, R227). -/
theorem decodeApp_data_header {t l1 l0 a1 a0 : Byte} (htype : t.toNat < 3) :
    decodeApp [t, l1, l0, a1, a0] = .ok (dataRecordOf ⟨t.toNat, htype⟩ (cat16 l1 l0) (cat16 a1 a0)) := by
  have hheader := decodeApp_dataRecord ⟨t.toNat, htype⟩ (cat16 l1 l0) (cat16 a1 a0) []
  simpa [appHeader] using hheader

/-- A data record whose payload overruns the buffer ends the load in its first engine step, its fields being set
(R225). -/
theorem appDataRecord_overrun {t : Byte} {len addr : Half}
    (hover : s.len < s.cur + 5 + advBytes s.params.oddAdvance len) :
    appDataRecord t len addr s =
      raise .outOfBounds s.cur { s with recType := t, recLen := len, recAddr := addr } :=
  if_pos hover

/-- The loop's head, `n` header bytes read, and an engine step that ends the load. -/
theorem loadFails_of_app_header (htodo : s.todo = .appRecord :: r) (hstable : s.sourcesStable) (hlen : s.cur < s.len)
    (hpart : ∀ k, k < n → s.appWhole (firstOf s.byteFrom k) = false)
    (hstep : engineStep (s.withTodo (.appBytes (firstOf s.byteFrom n) :: r)) = raise .outOfBounds s.cur u)
    (hrecord : u = s.withRecord u) (hxc : u.xc = s.xc) : s.LoadFails .outOfBounds (n + 2) := by
  refine ⟨u, hrecord, hxc, n + 2, le_rfl, ?_⟩
  rw [runEngine_add (n + 1) 1, runEngine_to_app htodo hstable hlen hpart, ← runEngine_engineStep, runEngine_zero, hstep]

/-- A header that does not lie inside the buffer: its type is no record. -/
theorem loadFails_of_short_header (htodo : s.todo = .appRecord :: r) (hstable : s.sourcesStable) (hlen : s.cur < s.len)
    (htype : ¬ 3 < (s.byteFrom 0).toNat) (hshort : s.len < s.cur + 5) : s.LoadFails .outOfBounds 3 := by
  have hmeet := meet_appBytes_bad (s := s.withTodo (.appBytes [s.byteFrom 0] :: r)) rfl
    (appWhole_of_short (s.byteFrom 0) hshort) (decodeApp_type_alone htype)
  refine loadFails_of_app_header (n := 1) htodo hstable hlen (fun k hk => ?_) (engineStep_of_meet_bad hmeet) rfl rfl
  obtain rfl : k = 0 := by omega
  rfl

/-- A data record whose header fits and whose payload overruns: it is decoded, and refused before its address write. -/
theorem loadFails_of_payload_overrun (htodo : s.todo = .appRecord :: r) (hstable : s.sourcesStable)
    (hlen : s.cur + 5 ≤ s.len) (htype : (s.byteFrom 0).toNat < 3)
    (hover : s.len < s.cur + 5 + advBytes s.params.oddAdvance (cat16 (s.byteFrom 1) (s.byteFrom 2))) :
    s.LoadFails .outOfBounds 7 := by
  have hpart (k : Nat) (hk : k < 5) := appWhole_of_part (s := s) (by omega) hlen hk
  have hwhole : s.appWhole (firstOf s.byteFrom 5) = true := by simp [firstOf_cons, State.appWhole]
  have hmeet := meet_appBytes (s := s.withTodo (.appBytes (firstOf s.byteFrom 5) :: r)) rfl hwhole
    (decodeApp_data_header htype)
  have hraise := (startOf_dataRecordOf ⟨_, htype⟩ _ (cat16 (s.byteFrom 3) (s.byteFrom 4)) _).trans
    (appDataRecord_overrun (s := s.withTodo r) hover)
  exact loadFails_of_app_header htodo hstable (by omega) hpart ((engineStep_of_meet_instr hmeet).trans hraise) rfl rfl

end Sys2Proof.Machine
end

section
/-! The statements of spec/45_app_loader.md. -/

namespace Sys2Proof.Machine

/-- Settles O52: the marker's own step, the check of LOAD_APP's first engine step, and the step that meets three other
bytes. -/
theorem markerCheck : Obligations.MarkerCheck := by
  refine ⟨fun s => exec_eq .appMagic s, fun s hcmd hinit hcap hshort => ?_,
    fun s r hgrant hcmd hagenda htodo hstable hwrong => ?_⟩
  · have hstart := startOf_loadApp_short hinit hcap hshort
    exact marker_error_leaves hcmd rfl (exec_ends hstart (raise_todo _ _ _))
  · have hrun := runEngine_wrong_marker htodo hstable hwrong
    exact marker_error_leaves hcmd rfl (step_of_raise hagenda hrun (Nat.succ_le_succ hgrant))

/-- Settles O56: the decoder, where the header is cut short, or the record's own check ends the load, in at most seven
engine steps. -/
theorem applicationOverrun : Obligations.ApplicationOverrun := by
  intro s r hgrant hcmd hagenda htodo hstable hlen htype hover
  have hfails : s.LoadFails .outOfBounds 7 := by
    by_cases hshort : s.len < s.cur + 5
    · exact (loadFails_of_short_header htodo hstable hlen (Nat.not_lt.2 htype) hshort).mono (by decide)
    · obtain hshort' | ⟨hdata, hlong⟩ := hover
      · exact absurd hshort' hshort
      · exact loadFails_of_payload_overrun htodo hstable (Nat.not_lt.1 hshort) (Nat.lt_of_le_of_ne htype hdata) hlong
  exact step_of_loadFails hagenda (List.mem_pair.2 (.inr hcmd)) hfails (Nat.succ_le_succ hgrant)

end Sys2Proof.Machine
end

section
/-! SUPPORT. Error entry where no byte waits for `DST` (R275), the commands refused before INIT (R257), and the items of
INIT and HARD_RESET (R251, R252, R254). -/

namespace Sys2Proof.Machine

variable {s : State} {i : Instr} {j k : Nat}

/-! ### Error entry and refusals -/

/-- Error entry is the completion step, where a STREAM_READ has received nothing. -/
theorem raise_eq_finish (hdst : decodeCommand s.lCmd = .streamRead → s.dstIn = []) (e : ErrCode) (pos : Nat) :
    raise e pos s = finish e pos none (if countsTransfers s.lCmd then some s.xc else none) s := by
  by_cases hread : decodeCommand s.lCmd = .streamRead
  · have hcommit : commit s.dstIn s.dst = s.dst := congrArg (commit · s.dst) (hdst hread)
    rw [raise, hcommit, ite_self]
  · obtain ⟨hcmd, -⟩ | ⟨-, hraise⟩ := raise_cases s e pos
    · exact absurd ((decodeCommand_streamRead_iff s.lCmd).2 hcmd) hread
    · exact hraise

/-- An error of a command that counts no transfers keeps `XCOUNT` and `DST` (R275). -/
theorem raise_of_not_counting
    (hcount : decodeCommand s.lCmd ∉ [Instr.streamWrite, .streamRead, .loadPlugin, .loadApp]) (e : ErrCode) (pos : Nat) :
    raise e pos s = finish e pos none none s := by
  have hcounts : ¬ countsTransfers s.lCmd = true := fun h => hcount ((countsTransfers_iff s.lCmd).1 h)
  rw [raise_eq_finish (fun hread => absurd (by simp [hread]) hcount), if_neg hcounts]

/-- An error of a stream or load command writes its count, and nothing of `DST` where nothing was received (R275). -/
theorem raise_of_counting
    (hcount : decodeCommand s.lCmd ∈ [Instr.streamWrite, .streamRead, .loadPlugin, .loadApp])
    (hdst : decodeCommand s.lCmd = .streamRead → s.dstIn = []) (e : ErrCode) (pos : Nat) :
    raise e pos s = finish e pos none (some s.xc) s := by
  rw [raise_eq_finish hdst, if_pos ((countsTransfers_iff s.lCmd).2 hcount)]

/-- A stream or load command refused before INIT has set its count to 0, and a STREAM_READ has dropped the bytes
received (R257). -/
theorem startOf_counting_before_init (hi : i ∈ [Instr.streamWrite, .streamRead, .loadPlugin, .loadApp])
    (h : s.initDone = false) :
    ∃ d, (i = .streamRead → d = []) ∧ startOf i s = raise .notInitialized 0 { s with xc := 0, dstIn := d } := by
  have hnot : ¬ s.initDone = true := by simp [h]
  simp only [List.mem_cons, List.not_mem_nil, or_false] at hi
  obtain rfl | rfl | rfl | rfl := hi
  case inr.inl => exact ⟨[], fun _ => rfl, if_neg hnot⟩
  all_goals exact ⟨s.dstIn, nofun, if_neg hnot⟩

/-- An illegal word counts no transfers and is not STREAM_READ (R92). -/
theorem not_counting_of_illegal (hi : illegalCommands i) :
    i ∉ [Instr.streamWrite, .streamRead, .loadPlugin, .loadApp] := by
  obtain rfl | rfl | rfl | ⟨w, rfl | rfl | rfl | rfl⟩ := hi
  all_goals simp

/-! ### The items of INIT and HARD_RESET -/

/-- `HardReset()`, its four items met one after the other (R252). -/
theorem runEngine_hardResetItems (s : State) (r : List Micro) :
    runEngine 4 (s.withTodo (hardResetItems s.params ++ r)) = s.wasHardReset.withTodo r := by
  rw [← runEngine_engineStep, engineStep_setReset rfl, ← runEngine_engineStep, engineStep_delay rfl,
    ← runEngine_engineStep, engineStep_setReset rfl, ← runEngine_engineStep, engineStep_delay rfl, runEngine_zero]
  simp [driveReset, delayFor, State.emit, State.pop, State.withTodo, State.wasHardReset, hardResetItems]

/-- After CFG(PINS), CFG(SPI) and the flags they lead to (R251). -/
def State.linesConfigured (s : State) : State :=
  { s with
    csCmd := .high, csData := .high, resetLine := .driven .asserted, spiOn := true, initDone := true, cfg := true
    trace := s.trace ++ [.cfgPins, .cfgSpi] }

/-- INIT's first three items (R251). -/
theorem runEngine_configures (s : State) (r : List Micro) :
    runEngine 3 (s.withTodo (.cfgPins :: .cfgSpi :: .setInitDone :: r)) = s.linesConfigured.withTodo r := by
  rw [← runEngine_engineStep, engineStep_cfgPins rfl, ← runEngine_engineStep, engineStep_cfgSpi rfl,
    ← runEngine_engineStep, engineStep_setInitDone rfl, runEngine_zero]
  simp [configurePins, configureSpi, State.pop, State.withTodo, State.linesConfigured]

/-- The reset pulse of INIT, after its lines and its channel are configured. -/
theorem wasHardReset_linesConfigured (s : State) : s.linesConfigured.wasHardReset = s.initialised := by
  simp [State.wasHardReset, State.linesConfigured, State.initialised]

/-- The part of INIT before its control writes (R251). -/
theorem runEngine_initialised (s : State) :
    runEngine 7 (startInit s) =
      s.initialised.withTodo (.writeFrame s.params.regClockf s.params.initClockf ::
        .writeFrame s.params.regVol s.params.initVol :: .complete .nothing :: s.todo) := by
  rw [← wasHardReset_linesConfigured, ← runEngine_hardResetItems, ← runEngine_configures, ← runEngine_add]
  rfl

/-- INIT up to its completion (R251, R255). -/
theorem runEngine_startInit_frames (hclock : s.gateOpens j)
    (hvolume : (s.initialised.wroteFrame j s.params.regClockf s.params.initClockf).gateOpens k) :
    runEngine (7 + (2 * (j + k) + 16)) (startInit s) =
      ((s.initialised.wroteFrame j s.params.regClockf s.params.initClockf).wroteFrame k
        s.params.regVol s.params.initVol).withTodo (.complete .nothing :: s.todo) := by
  rw [runEngine_add, runEngine_initialised]
  exact runEngine_writeFrame_writeFrame rfl hclock hvolume

/-- HARD_RESET after INIT, up to its completion (R254). -/
theorem runEngine_startHardReset (hinit : s.initDone = true) :
    runEngine 4 (startOf .hardReset s) = s.wasHardReset.withTodo (.complete .nothing :: s.todo) := by
  have hstart : startOf .hardReset s = s.withTodo (hardResetItems s.params ++ .complete .nothing :: s.todo) :=
    if_pos hinit
  rw [hstart, runEngine_hardResetItems]

end Sys2Proof.Machine
end

section
/-! The statements of spec/46_line_control.md. -/

namespace Sys2Proof.Machine

/-- Settles O58: lines, channel and reset pulse in seven engine steps, then the two control writes and the completion. -/
theorem initCompletes : Obligations.InitCompletes := by
  intro s j k hclock hvolume hgrant
  exact ⟨_, exec_completes (i := .init) (runEngine_startInit_frames hclock hvolume) rfl (by omega),
    rfl, rfl, rfl, rfl, rfl, rfl, rfl, fun _ => rfl, fun _ => rfl, fun _ => rfl⟩

/-- Settles O29: the error entry, on the state in which a stream or load command has cleared its count. -/
theorem notInitializedRefusal : Obligations.NotInitializedRefusal := by
  rintro s i hi rfl hinit
  by_cases hcount : decodeCommand s.lCmd ∈ [Instr.streamWrite, .streamRead, .loadPlugin, .loadApp]
  · obtain ⟨d, hdst, hstart⟩ := startOf_counting_before_init hcount hinit
    have hraise := raise_of_counting (s := { s with xc := 0, dstIn := d }) hcount hdst .notInitialized 0
    exact ⟨_, exec_ends (hstart.trans hraise) rfl, rfl, rfl, rfl, rfl, (if_pos hcount).symm, rfl⟩
  · obtain ⟨n, d, hstart⟩ := startOf_before_init hi hinit
    have hraise := raise_of_not_counting (s := { s with xc := n, dstIn := d }) hcount .notInitialized 0
    exact ⟨_, exec_ends (hstart.trans hraise) rfl, rfl, rfl, rfl, rfl, (if_neg hcount).symm, rfl⟩

/-- Settles O59, its second clause as a case of O29. -/
theorem hardResetCompletes : Obligations.HardResetCompletes := by
  refine ⟨fun s hinit hgrant => ?_, fun s hinit hdecode => ?_⟩
  · exact ⟨_, exec_completes (runEngine_startHardReset hinit) rfl hgrant, rfl, rfl, rfl, rfl, rfl, rfl,
      fun _ => rfl, fun _ => rfl, fun _ => rfl⟩
  · obtain ⟨t, hexec, herr, hpos, hresult, hbusy, hxcount, hframe⟩ :=
      notInitializedRefusal s .hardReset (by decide) hdecode hinit
    have hcontrol : t = (s.withRecord t).withControl t := by
      rw [hframe]
      rfl
    exact ⟨t, hexec, herr, hpos, by rw [hframe], hresult, hxcount, hbusy, by rw [hframe]; exact ⟨rfl, rfl, rfl, rfl⟩,
      sameAround_of_load hcontrol⟩

/-- Settles O31: an illegal word is refused in its first engine step, and neither counts nor receives anything. -/
theorem illegalCommandCompletes : Obligations.IllegalCommandCompletes := by
  rintro s i hi rfl
  have hraise := raise_of_not_counting (not_counting_of_illegal hi) .illegalCommand 0
  exact ⟨_, exec_ends ((startOf_illegal hi).trans hraise) rfl, rfl, rfl, rfl, rfl⟩

end Sys2Proof.Machine
end

section
/-! SUPPORT. The refusal of a buffer operand above its capacity (R276), and what the host reads at reset (R300). -/

namespace Sys2Proof.Machine

variable {s : State} {i : Instr}

/-- After INIT a stream or load command whose buffer operand is above its capacity has set its count to 0, and a
STREAM_READ has dropped the bytes received (R276, R281). -/
theorem startOf_above_capacity (hinit : s.initDone = true)
    (hlong : (i = .streamWrite ∧ s.params.srcCap < s.len) ∨ (i = .streamRead ∧ s.params.dstCap < s.len) ∨
      (i = .loadPlugin ∧ s.params.srcwCap < s.len) ∨ (i = .loadApp ∧ s.params.srcCap < s.len)) :
    i ∈ [Instr.streamWrite, .streamRead, .loadPlugin, .loadApp] ∧
      ∃ d, (i = .streamRead → d = []) ∧ startOf i s = raise .invalidArgument 0 { s with xc := 0, dstIn := d } := by
  obtain ⟨rfl, hcap⟩ | ⟨rfl, hcap⟩ | ⟨rfl, hcap⟩ | ⟨rfl, hcap⟩ := hlong
  case inr.inl => exact ⟨by decide, [], fun _ => rfl, (if_pos hinit).trans (if_pos hcap)⟩
  all_goals exact ⟨by decide, s.dstIn, nofun, (if_pos hinit).trans (if_pos hcap)⟩

/-- At reset each of the nine registers reads 0, and so does every other number (R24, R300). -/
theorem hostRegister_reset (n : Nat) : State.reset.hostRegister n = 0 := by
  by_cases hn : 9 < n
  · exact hostRegister_above hn State.reset
  · interval_cases n <;> rfl

end Sys2Proof.Machine
end

section
/-! The statements of spec/60_exceptions.md and spec/70_reset_and_hazards.md. -/

namespace Sys2Proof.Machine

/-- Settles O30: the error entry, on the state in which the command has cleared its count. -/
theorem invalidArgumentRefusal : Obligations.InvalidArgumentRefusal := by
  rintro s i hinit rfl hlong
  obtain ⟨hcount, d, hdst, hstart⟩ := startOf_above_capacity hinit hlong
  have hraise := raise_of_counting (s := { s with xc := 0, dstIn := d }) hcount hdst .invalidArgument 0
  exact ⟨_, exec_ends (hstart.trans hraise) rfl, rfl, rfl, countRegister_of_le_len (Nat.zero_le s.len), rfl, rfl⟩

/-- Settles O5, the pin by its line and the registers by their numbers. -/
theorem resetIsPowerOn : Obligations.ResetIsPowerOn :=
  ⟨rfl, rfl, rfl, rfl, resetPin_of_z rfl, rfl, rfl, rfl, rfl, rfl, rfl, rfl, hostRegister_reset, rfl, rfl⟩

end Sys2Proof.Machine
end
